-- ==== Sys2Proof/Word.lean ====
section
/-! DEFINITION. The octet, the unit of the line and of the host link (00_scope.md, Terms). -/

namespace Sys2Proof

/-- Eight bits (00_scope.md, Terms: octet). -/
abbrev Octet := BitVec 8

/-- FFh, "sent or read in a slot that carries nothing" (00_scope.md, Terms: idle octet). -/
abbrev idleOctet : Octet := 0xFF#8

end Sys2Proof
end

