-- ==== Sys2Proof/Config.lean ====
section
/-! DEFINITION. The capacities the spec fixes for the part (R170), and the two free values. -/

namespace Sys2Proof.Config

/-- Stations on the line (R22, R170). -/
abbrev stations : Nat := 30
/-- Slots in a cycle (1.1, R170). -/
abbrev slots : Nat := 48
/-- The crystal and the line bit clock, crystal / 16, in bits per second (1.1); "No setting changes it" (R1). -/
abbrev crystal : Nat := 24576000
abbrev lineRate : Nat := crystal / 16
/-- Bits in a slot, bits in a cycle, cycles per second (1.1). -/
abbrev slotWidth : Nat := 8
abbrev cycleBits : Nat := slots * slotWidth
abbrev cyclesPerSecond : Nat := lineRate / cycleBits
/-- The first payload slot (1.1): the payload slots are 5 to 47. -/
abbrev firstPayload : Nat := 5
/-- Payload slots in each direction (1.1, R65, R170). -/
abbrev payloadSlots : Nat := 43
/-- STARTING cycles before RUNNING (R8). -/
abbrev startingCycles : Nat := 16
/-- The readback mismatch count that faults the line (R12). -/
abbrev readbackLimit : Nat := 8
/-- Note Store capacity, and its share for one station (R49). -/
abbrev noteStore : Nat := 32
abbrev notesPerStation : Nat := 4
/-- The longest note (R51). -/
abbrev longestNote : Nat := 16
/-- Busy answers that end a note (R54) and wrong echoes that end a note (R55). -/
abbrev busyLimit : Nat := 64
abbrev unackedLimit : Nat := 4
/-- Lanes, and the depth of a transmit queue (R120, R170). -/
abbrev lanes : Nat := 4
abbrev queueDepth : Nat := 16
/-- The Circuit Table and the widest circuit (R79). -/
abbrev circuits : Nat := 12
abbrev circuitWidth : Nat := 4
/-- The Reclaim List (R69). -/
abbrev reclaimList : Nat := 64
/-- Mailboxes and their depth (R151). -/
abbrev mailboxes : Nat := 8
abbrev mailboxDepth : Nat := 8
/-- Blocks of the pool, octets in a block, octets in the largest body (R108, R109). -/
abbrev poolBlocks : Nat := 256
abbrev blockSize : Nat := 32
abbrev largestBody : Nat := 512
/-- Idle cycles that end a window EMPTY (R99). -/
abbrev emptyLimit : Nat := 4
/-- Report Queue with report window, report window, Completion List (R175, R182, R179). -/
abbrev reportQueue : Nat := 64
abbrev reportWindow : Nat := 8
abbrev completionList : Nat := 96
/-- Request intake and reply queue (R163, R166). -/
abbrev intake : Nat := 4
abbrev replyQueue : Nat := 4
/-- The largest body of a link frame (R159). -/
abbrev largestFrameBody : Nat := 560
/-- Part code and revision (R170). -/
abbrev partCode : Nat := 0x0430
abbrev revision : Nat := 1

/-- The rate in baud of each rate code (R158). -/
def baud : Nat → Option Nat
  | 0 => some 115200
  | 1 => some 230400
  | 2 => some 460800
  | 3 => some 921600
  | _ => none

/-- Bit times in a character: one start bit, eight data bits, one stop bit (R158). -/
abbrev characterBits : Nat := 10

/-- Characters per second at each rate code (R158). -/
def charactersPerSecond (code : Nat) : Option Nat := (baud code).map (· / characterBits)

/-- FREE VALUE (log entry 1): at the n-th time a reply and a report become available to an idle transmitter together,
whether the reply starts first. R166: "either may start first". It has no body, so nothing can be proved of its value. -/
opaque replyFirst : Nat → Bool

/-- FREE VALUE (log entry 29): at the n-th open choice, a resync that cuts off a frame being sent (R168 step 4), the place in the
frame of the character in progress, modulo the frame's length on the wire. Time decides it, and no command tells the time. It has
no body, so nothing can be proved of its value. -/
opaque cutPlace : Nat → Nat

end Sys2Proof.Config
end

