-- ==== Sys2Proof/Syntax.lean ====
section
/-! DEFINITION. The commands of the part: one constructor for each row of spec/opcode_table.json. -/

namespace Sys2Proof

/-- The commands. A request's operands are the tag and the body of the frame that the request processor takes (R159, R164);
an event's operands are what arrives with it. -/
inductive Instr where
  /-- LINE.START (R7), frame kind 01h. -/
  | lineStart (tag : Octet) (body : List Octet)
  /-- LINE.STOP (R9), 02h. -/
  | lineStop (tag : Octet) (body : List Octet)
  /-- LINE.SET (R14), 03h. -/
  | lineSet (tag : Octet) (body : List Octet)
  /-- STATS (R20), 04h. -/
  | stats (tag : Octet) (body : List Octet)
  /-- STATION.ENROL (R41), 05h. -/
  | stationEnrol (tag : Octet) (body : List Octet)
  /-- STATION.WITHDRAW (R42), 06h. -/
  | stationWithdraw (tag : Octet) (body : List Octet)
  /-- STATION.BAR (R43), 07h. -/
  | stationBar (tag : Octet) (body : List Octet)
  /-- STATION.UNBAR (R44), 08h. -/
  | stationUnbar (tag : Octet) (body : List Octet)
  /-- STATION.BIND (R45), 09h. -/
  | stationBind (tag : Octet) (body : List Octet)
  /-- STATION.READ (R46), 0Ah. -/
  | stationRead (tag : Octet) (body : List Octet)
  /-- NOTE.SEND (R51), 0Bh. -/
  | noteSend (tag : Octet) (body : List Octet)
  /-- NOTE.CANCEL (R59), 0Ch. -/
  | noteCancel (tag : Octet) (body : List Octet)
  /-- LANE.SET (R74 to R76), 0Dh. -/
  | laneSet (tag : Octet) (body : List Octet)
  /-- CIRCUIT.OPEN (R80), 0Eh. -/
  | circuitOpen (tag : Octet) (body : List Octet)
  /-- CIRCUIT.CLOSE (R84), 0Fh. -/
  | circuitClose (tag : Octet) (body : List Octet)
  /-- SLOT.MAP (R88), 10h. -/
  | slotMap (tag : Octet) (body : List Octet)
  /-- PACKET.SEND (R122), 11h. -/
  | packetSend (tag : Octet) (body : List Octet)
  /-- PACKET.ADD (R123), 12h. -/
  | packetAdd (tag : Octet) (body : List Octet)
  /-- PACKET.CANCEL (R131), 13h. -/
  | packetCancel (tag : Octet) (body : List Octet)
  /-- LANE.RESET (R133), 14h. -/
  | laneReset (tag : Octet) (body : List Octet)
  /-- LANE.READ (R138), 15h. -/
  | laneRead (tag : Octet) (body : List Octet)
  /-- MAILBOX.SET (R152), 16h. -/
  | mailboxSet (tag : Octet) (body : List Octet)
  /-- MAILBOX.TAKE (R153), 17h. -/
  | mailboxTake (tag : Octet) (body : List Octet)
  /-- MAILBOX.FLUSH (R154), 18h. -/
  | mailboxFlush (tag : Octet) (body : List Octet)
  /-- REPORT.ACK (R183), 19h. -/
  | reportAck (tag : Octet) (body : List Octet)
  /-- REPORT.RESEND (R184), 1Ah. -/
  | reportResend (tag : Octet) (body : List Octet)
  /-- LINK.SET (R169), 1Bh. -/
  | linkSet (tag : Octet) (body : List Octet)
  /-- LINK.HELLO (R170), 1Ch. -/
  | linkHello (tag : Octet) (body : List Octet)
  /-- DEVICE.RESTART (R171), 1Dh. -/
  | deviceRestart (tag : Octet) (body : List Octet)
  /-- A frame whose kind is not a request kind is taken (R164). -/
  | unknownRequest (kind tag : Octet) (body : List Octet)
  /-- Power-on completes (R172). -/
  | powerOn
  /-- The RESET pin goes low (R172). -/
  | resetPinAssert
  /-- The RESET pin returns high (R172). -/
  | resetPinRelease
  /-- The last stop bit of the DEVICE.RESTART reply goes out (R171). -/
  | restartTakesEffect
  /-- The last stop bit of the LINK.SET reply goes out (R169). -/
  | rateChange
  /-- The receive line has stayed low for 20 bit times (R167, R168). -/
  | linkResync
  /-- The receive line returns high after a break (R168). -/
  | breakEnd
  /-- A character is received, with the level of its stop bit; a low one is a framing error, the line having returned high
  before 20 bit times (R161, R167). -/
  | rxCharacter (octet : Octet) (stopHigh : Bool)
  /-- The last stop bit of a frame goes out (R166). -/
  | txFrameEnd
  /-- A cycle starts (R4, R11, R24, R96, R125). -/
  | cycleStart
  /-- Slot 47 has been read back (R12): whether the marker was found where it was driven, and each slot with the octet
  read there; a slot not listed reads back as driven. -/
  | cycleEnd (marker : Bool) (readback : List (Nat × Octet))
  /-- The cycle end whose mismatch is the eighth in a row (R12); operands as cycleEnd. -/
  | readbackFault (marker : Bool) (readback : List (Nat × Octet))
  /-- The cycle start after the sixteenth completed STARTING cycle (R8). -/
  | runningReached
  /-- The octet of slot 2, up (R26). -/
  | answerArrival (octet : Octet)
  /-- The octet of slot 3, up (R91). -/
  | bidArrival (octet : Octet)
  /-- An up octet in a slot routed to a lane (R97). -/
  | windowUpOctet (slot : Nat) (octet : Octet)
  /-- An up octet in a slot routed to a circuit (R81). -/
  | circuitUpOctet (slot : Nat) (octet : Octet)
  /-- The turn of a down slot routed to a circuit (R81). -/
  | circuitDownSlot (slot : Nat)
  /-- The turn of a down slot routed to a lane (R126). -/
  | laneDownSlotTurn (slot : Nat)
  /-- The answer with which an ONLINE station reaches the miss limit (R31). -/
  | stationMissLimit (octet : Octet)
  /-- The answer with which the quiet count reaches the quiet limit (R17). -/
  | lineQuiet (octet : Octet)
  /-- The answer that is the 64th busy one (R54). -/
  | busyTimeout (octet : Octet)
  /-- The answer that is the 4th with the wrong echo (R55). -/
  | noAck (octet : Octet)
  /-- The cycle start at which the open window has used up its limit (R98). -/
  | windowOverrun
  /-- The up octet that completes the fourth idle cycle of a window (R99). -/
  | windowEmpty (slot : Nat) (octet : Octet)
  /-- The cycle start at which the lane's engine leaves GAP (R128). -/
  | gapEnd (lane : Nat)
  deriving DecidableEq, Repr

end Sys2Proof
end

