-- ==== Sys2Proof/WellFormed.lean ====
section
/-! DEFINITION. Which commands are well formed: the ranges the spec gives their operands. -/

namespace Sys2Proof

/-- The request kinds are 01h to 1Dh (11.2). -/
def isRequestKind (kind : Octet) : Bool := decide (0x01 ≤ kind.toNat ∧ kind.toNat ≤ 0x1D)

/-- A frame's body holds at most 560 octets (R159). -/
def bodyFits (body : List Octet) : Bool := decide (body.length ≤ Config.largestFrameBody)

/-- The payload slots are 5 to 47 (1.1). -/
def isPayloadSlot (slot : Nat) : Bool := decide (Config.firstPayload ≤ slot ∧ slot < Config.slots)

/-- Every slot of a readback is a slot of the cycle (R12). -/
def readbackFits (readback : List (Nat × Octet)) : Bool := readback.all fun p => decide (p.1 < Config.slots)

/-- The operands are in the ranges the spec gives them. -/
def Instr.wellFormed : Instr → Bool
  | .lineStart _ b | .lineStop _ b | .lineSet _ b | .stats _ b | .stationEnrol _ b | .stationWithdraw _ b
  | .stationBar _ b | .stationUnbar _ b | .stationBind _ b | .stationRead _ b | .noteSend _ b | .noteCancel _ b
  | .laneSet _ b | .circuitOpen _ b | .circuitClose _ b | .slotMap _ b | .packetSend _ b | .packetAdd _ b
  | .packetCancel _ b | .laneReset _ b | .laneRead _ b | .mailboxSet _ b | .mailboxTake _ b | .mailboxFlush _ b
  | .reportAck _ b | .reportResend _ b | .linkSet _ b | .linkHello _ b | .deviceRestart _ b => bodyFits b
  | .unknownRequest kind _ b => !isRequestKind kind && bodyFits b
  | .powerOn | .resetPinAssert | .resetPinRelease | .restartTakesEffect | .rateChange | .linkResync | .breakEnd
  | .txFrameEnd | .cycleStart | .runningReached | .windowOverrun => true
  | .rxCharacter _ _ | .answerArrival _ | .bidArrival _ | .stationMissLimit _ | .lineQuiet _ | .busyTimeout _
  | .noAck _ => true
  | .cycleEnd _ r | .readbackFault _ r => readbackFits r
  | .windowUpOctet slot _ | .circuitUpOctet slot _ | .circuitDownSlot slot | .laneDownSlotTurn slot
  | .windowEmpty slot _ => isPayloadSlot slot
  | .gapEnd lane => decide (lane < Config.lanes)

end Sys2Proof
end

