-- ==== Sys2Proof/Machine/State.lean ====
section
/-! DEFINITION. The state of the SL430, block by block, and its value after reset. -/

namespace Sys2Proof.Machine

/-! ## Line engine (chapter 1) -/

/-- Line states, in the order of 11.3. -/
inductive LineState where
  | stopped | starting | running | faulted
  deriving DecidableEq, Repr

/-- Reasons of LINE_STATE (R18), in the order of 11.3. -/
inductive LineReason where
  | request | readback | runningReached
  deriving DecidableEq, Repr

/-- The five line settings (1.9). -/
structure LineSettings where
  missLimit : Nat
  windowLimit : Nat
  probeInterval : Nat
  quietLimit : Nat
  receiveReserve : Nat
  deriving DecidableEq, Repr

/-- The two directions of the line (11.3). -/
inductive Dir where
  | down | up
  deriving DecidableEq, Repr

/-- The owner of a slot (R65). -/
inductive Owner where
  | lane (n : Nat)
  | circuit (n : Nat)
  deriving DecidableEq, Repr

/-- The line engine (1.6). -/
structure LineEngine where
  state : LineState
  startCount : Nat
  cycleCounter : BitVec 16
  cycleTotal : BitVec 32
  mismatchCount : Nat
  quietCount : Nat
  quietReported : Bool
  /-- Absent or READBACK (R12). -/
  faultReason : Option LineReason
  settings : LineSettings
  /-- A cycle is in progress (R9, R12, R21); log entry 3. -/
  cycleOpen : Bool
  /-- The octets of the down pair in the 48 slots of the present cycle, FFh where nothing has been driven (R1 to R4). -/
  driven : List Octet
  /-- The cycle-start sample of the Slot Map (R4): owners of slots 5 to 47, down and up. -/
  sampleDown : List (Option Owner)
  sampleUp : List (Option Owner)
  deriving DecidableEq, Repr

/-! ## Poll unit (chapter 2) -/

/-- Station states, in the order of 11.3. -/
inductive StationState where
  | free | offline | joining | online | silent | barred
  deriving DecidableEq, Repr

/-- Reasons of STATION_STATE (R36), in the order of 11.3. -/
inductive StationReason where
  | answered | missLimit | lineDown | bar | withdraw
  deriving DecidableEq, Repr

/-- One entry of the Station Table (R22). -/
structure Station where
  state : StationState
  lane : Nat
  accepted : Option Nat
  candidate : Option Nat
  missCount : Nat
  noteToggle : Bool
  abortPending : Bool
  busyRun : Nat
  unackedPolls : Nat
  heard : Bool
  missesTotal : Nat
  malformedAnswers : Nat
  badCheckPackets : Nat
  windowsGranted : Nat
  deriving DecidableEq, Repr

/-- An entry after reset (R48). -/
def Station.fresh : Station where
  state := .free
  lane := 0
  accepted := none
  candidate := none
  missCount := 0
  noteToggle := false
  abortPending := false
  busyRun := 0
  unackedPolls := 0
  heard := false
  missesTotal := 0
  malformedAnswers := 0
  badCheckPackets := 0
  windowsGranted := 0

/-- The call of a cycle (R24): ring poll, probe, or address 0. -/
inductive Call where
  | none
  | ring (address : Nat)
  | probe (address : Nat)
  deriving DecidableEq, Repr

/-- The poll unit (R22 to R24). The entry of address a stands at place a - 1. -/
structure PollUnit where
  stations : List Station
  pollPointer : Nat
  probePointer : Nat
  call : Call
  deriving DecidableEq, Repr

/-! ## Note unit (chapter 3) -/

/-- Note states, in the order of 11.3. -/
inductive NoteState where
  | queued | inFlight
  deriving DecidableEq, Repr

/-- Note marks (3.3), in the order of 11.1. -/
inductive NoteMark where
  | none | more | endMark | abort
  deriving DecidableEq, Repr

/-- Note outcomes, in the order of 11.3. -/
inductive NoteOutcome where
  | delivered | cancelled | noAck | busyTimeout | stationLost | lineStopped
  deriving DecidableEq, Repr

/-- A note held in the Note Store (R49); its length is the number of its octets. -/
structure Note where
  handle : Nat
  station : Nat
  octets : List Octet
  nextIndex : Nat
  state : NoteState
  deriving DecidableEq, Repr

/-- The call-out record of a ring poll of an ONLINE station (R52). -/
structure CallOut where
  station : Nat
  mark : NoteMark
  toggle : Bool
  /-- For MORE and END, the handle of the note and the index of the octet. -/
  note : Option (Nat × Nat)
  deriving DecidableEq, Repr

/-- The note unit (R49 to R52). The store is in acceptance order; `lastHandle` is 0 when none has been given. -/
structure NoteUnit where
  store : List Note
  callOut : Option CallOut
  lastHandle : Nat
  deriving DecidableEq, Repr

/-! ## Slot Map unit and circuit unit (chapter 4) -/

/-- An owned entry of the Slot Map (R65). -/
structure MapEntry where
  owner : Owner
  prec : Nat
  deriving DecidableEq, Repr

/-- An entry of the Reclaim List (R69). -/
structure ReclaimEntry where
  owner : Owner
  dir : Dir
  slot : Nat
  prec : Nat
  deriving DecidableEq, Repr

/-- The Slot Map (slot s at place s - 5) and the Reclaim List, oldest first. -/
structure SlotUnit where
  down : List (Option MapEntry)
  up : List (Option MapEntry)
  reclaim : List ReclaimEntry
  deriving DecidableEq, Repr

/-- States that CIRCUIT_STATE reports, in the order of 11.3. An open circuit is never `closed`. -/
inductive CircuitState where
  | live | muted | displaced | closed
  deriving DecidableEq, Repr

/-- Reasons of CIRCUIT_STATE (R87), in the order of 11.3. -/
inductive CircuitReason where
  | slotLost | slotsRegained | sourceOnline | sourceLeft | noReclaim
  deriving DecidableEq, Repr

/-- An open circuit (R79); its width is the length of its lists. -/
structure Circuit where
  source : Nat
  up : List Nat
  down : List Nat
  prec : Nat
  state : CircuitState
  incoming : List (Option Octet)
  outgoing : List (Option Octet)
  /-- The circuit was LIVE at the present cycle's start and has not left LIVE since (R81); log entry 6. -/
  collects : Bool
  deriving DecidableEq, Repr

/-- SLOT_EVENT events, in the order of 11.3. -/
inductive SlotEventKind where
  | lost | regained
  deriving DecidableEq, Repr

/-! ## Transmit unit (chapter 7) -/

/-- Packet states, in the order of 11.3. -/
inductive PacketState where
  | filling | ready | sending | aborting
  deriving DecidableEq, Repr

/-- Engine states, in the order of 11.3. -/
inductive EngineState where
  | idle | sending | aborting | gap
  deriving DecidableEq, Repr

/-- Packet outcomes, in the order of 11.3. -/
inductive PacketOutcome where
  | sent | cancelled | aborted
  deriving DecidableEq, Repr

/-- Packet reasons, in the order of 11.3. -/
inductive PacketReason where
  | cancel | laneReset | underrun | slotsLost | lineStopped
  deriving DecidableEq, Repr

/-- A record of a transmit queue (R120); octets received is the length of `body`. -/
structure Packet where
  handle : Nat
  destination : Nat
  port : Octet
  declared : Nat
  body : List Octet
  position : Nat
  state : PacketState
  abortReason : Option PacketReason
  /-- Body octets that had gone out when the packet stopped SENDING (R137); 0 before. -/
  bodySent : Nat
  deriving DecidableEq, Repr

/-- A lane: its settings (R73), its engine (R124) and its transmit queue (R120), oldest first. -/
structure Lane where
  prec : Nat
  cutThrough : Bool
  engine : EngineState
  activeSet : List Nat
  runningCheck : BitVec 16
  gapCount : Nat
  queue : List Packet
  deriving DecidableEq, Repr

/-- A lane after reset (R89, R139). -/
def Lane.fresh : Lane where
  prec := 1
  cutThrough := false
  engine := .idle
  activeSet := []
  runningCheck := 0xFFFF#16
  gapCount := 0
  queue := []

/-! ## Window unit (chapter 5) -/

/-- An OPEN window (R90); NONE is the absence of one. -/
structure Window where
  owner : Nat
  lane : Nat
  upSet : List Nat
  cyclesUsed : Nat
  packetStarted : Bool
  idleRun : Nat
  deriving DecidableEq, Repr

/-- The window unit (R90, R93, R106). -/
structure WindowUnit where
  window : Option Window
  queue : List Nat
  bidCollisions : Nat
  ignoredBids : Nat
  deriving DecidableEq, Repr

/-! ## Receiver, sort unit and mailboxes (chapter 8) -/

/-- Receiver states, in the order of 11.3. -/
inductive ReceiverState where
  | idle | header | body | check | drain
  deriving DecidableEq, Repr

/-- Match kinds, in the order of 11.3. -/
inductive MatchKind where
  | a | b | masked | general | all
  deriving DecidableEq, Repr

/-- Why a packet is drained (R140, R143). -/
inductive SortFault where
  | unclaimed | mailboxFull | noBuffer
  deriving DecidableEq, Repr

/-- The receive record (R140). -/
structure ReceiveRecord where
  port : Option Octet
  station : Option Octet
  /-- The third octet of the packet, held until the fourth completes the length. -/
  lengthHigh : Option Octet
  length : Option Nat
  taken : Nat
  check : BitVec 16
  /-- The first check octet; the received check is whole, and judged, in the arrival of the second (R146). -/
  checkHigh : Option Octet
  mailbox : Option Nat
  matchKind : Option MatchKind
  fault : Option SortFault
  stamp : BitVec 16
  body : List Octet
  deriving DecidableEq, Repr

/-- The record in IDLE (R140: absent or 0). -/
def ReceiveRecord.empty : ReceiveRecord where
  port := none
  station := none
  lengthHigh := none
  length := none
  taken := 0
  check := 0
  checkHigh := none
  mailbox := none
  matchKind := none
  fault := none
  stamp := 0
  body := []

/-- The receiver and its six counters (R140, R156). -/
structure Receiver where
  state : ReceiverState
  record : ReceiveRecord
  stored : Nat
  badCheck : Nat
  foreign : Nat
  long : Nat
  unclaimed : Nat
  cutShort : Nat
  deriving DecidableEq, Repr

/-- Mailbox modes, in the order of 11.3. -/
inductive MailboxMode where
  | either | masked | all
  deriving DecidableEq, Repr

/-- A mailbox filter (R144). -/
structure Filter where
  enabled : Bool
  mode : MailboxMode
  portA : Octet
  portB : Octet
  general : Bool
  restriction : Option Nat
  deriving DecidableEq, Repr

/-- A received packet in a mailbox (R151). -/
structure MailRecord where
  source : Nat
  port : Octet
  matchKind : MatchKind
  length : Nat
  stamp : BitVec 16
  body : List Octet
  deriving DecidableEq, Repr

/-- A mailbox (R144, R151). -/
structure Mailbox where
  filter : Filter
  records : List MailRecord
  dropped : Nat
  deriving DecidableEq, Repr

/-- A mailbox after reset (R157). -/
def Mailbox.fresh : Mailbox where
  filter :=
    { enabled := false, mode := .either, portA := 0, portB := 0, general := false, restriction := none }
  records := []
  dropped := 0

/-! ## Report unit (chapter 10) -/

/-- Receive faults of RX_FAULT, in the order of 11.3. -/
inductive ReceiveFault where
  | empty | overrun | slotsLost | foreign | long | unclaimed | badCheck
  deriving DecidableEq, Repr

/-- Causes of PART_READY (R171, R172), in the order of 11.3. -/
inductive RestartCause where
  | powerOn | pin | restart
  deriving DecidableEq, Repr

/-- Causes of a link fault (R162), in the order of 11.3. -/
inductive LinkFaultCause where
  | check | length | cutShort | escape | framing | overrun
  deriving DecidableEq, Repr

/-- The fields of NOTE_DONE (R58). -/
structure NoteDone where
  handle : Nat
  station : Nat
  outcome : NoteOutcome
  length : Nat
  acknowledged : Nat
  cycle : BitVec 16
  deriving DecidableEq, Repr

/-- The fields of PACKET_DONE (R137). -/
structure PacketDone where
  handle : Nat
  lane : Nat
  destination : Nat
  port : Octet
  declared : Nat
  outcome : PacketOutcome
  reason : Option PacketReason
  bodySent : Nat
  received : Nat
  cycle : BitVec 16
  deriving DecidableEq, Repr

/-- The fields of RX_FAULT (R105, R155). -/
structure RxFault where
  fault : ReceiveFault
  owner : Nat
  lane : Nat
  port : Option Octet
  length : Option Nat
  cyclesUsed : Nat
  slotLost : Option Nat
  stationField : Option Octet
  /-- Received check and running check, for BAD_CHECK. -/
  checks : Option (BitVec 16 × BitVec 16)
  cycle : BitVec 16
  deriving DecidableEq, Repr

/-- The fields of LINK_FAULT (R162): a count for each cause, and the link fault count. -/
structure LinkFaultCounts where
  check : Nat
  length : Nat
  cutShort : Nat
  escape : Nat
  framing : Nat
  overrun : Nat
  total : Nat
  deriving DecidableEq, Repr

/-- The reports (10.6, 11.6). -/
inductive Report where
  | partReady (cause : RestartCause)
  | lineState (new left : LineState) (reason : LineReason) (cycle : BitVec 16)
  | lineQuiet (count limit : Nat)
  | stationState (address : Nat) (new left : StationState) (reason : StationReason) (cycle : BitVec 16)
  | stationHeard (address code : Nat)
  | condition (address accepted : Nat) (replaced : Option Nat) (skipped : Nat) (cycle : BitVec 16)
  | noteDone (d : NoteDone)
  | packetDone (d : PacketDone)
  | slotEvent (lane : Nat) (dir : Dir) (slot : Nat) (event : SlotEventKind) (owner : Owner) (prec : Option Nat)
      (reclaim : Option Bool) (cycle : BitVec 16)
  | circuitState (circuit source : Nat) (new left : CircuitState) (reason : CircuitReason)
      (lost : Option (Dir × Nat)) (cycle : BitVec 16)
  | rxFault (f : RxFault)
  | mailWaiting (mailbox source : Nat) (port : Octet) (length : Nat) (stamp : BitVec 16)
  | mailDropped (mailbox full noBuffer : Nat) (source : Nat) (port : Octet) (cycle : BitVec 16)
  | linkFault (counts : LinkFaultCounts)
  | reportsLost (count : Nat) (kinds : BitVec 16) (cycle : BitVec 16)
  deriving DecidableEq, Repr

/-- An entry of the Completion List (R179). -/
inductive Completion where
  | note (d : NoteDone)
  | packet (d : PacketDone)
  deriving DecidableEq, Repr

/-- A report in the report window, with its sequence number (R182). -/
structure SentReport where
  seq : BitVec 8
  report : Report
  deriving DecidableEq, Repr

/-- The report unit (R175, R178, R179, R181, R182, R184). -/
structure ReportUnit where
  queue : List Report
  window : List SentReport
  nextSeq : BitVec 8
  resend : List SentReport
  entries : List Completion
  lostCount : Nat
  /-- The kinds lost, as the two octets of REPORTS_LOST: bit n for kind 40h + n (11.3). -/
  kindsLost : BitVec 16
  deriving DecidableEq, Repr

/-! ## Host link and request processor (chapter 9) -/

/-- A link frame without start, length and check (R159). -/
structure Frame where
  kind : Octet
  tag : Octet
  body : List Octet
  deriving DecidableEq, Repr

/-- States of the receive framer (R161). -/
inductive FramerState where
  | hunt | length | content | check
  deriving DecidableEq, Repr

/-- The receive framer (R161): the assembly buffer holds the octets after the start octet, escapes undone. The computed
check of R161 is a view of the buffer (Framer.computedCheck). -/
structure Framer where
  state : FramerState
  escape : Bool
  buffer : List Octet
  deriving DecidableEq, Repr

/-- The framer in HUNT with an empty assembly buffer (R174). -/
def Framer.hunting : Framer where
  state := .hunt
  escape := false
  buffer := []

/-- A request taken and held (R169, R171). -/
inductive Hold where
  | linkSet (code : Nat)
  | restart
  deriving DecidableEq, Repr

/-- The transmitter (R166): idle, sending the front of the reply queue, or sending a report's frame. -/
inductive Tx where
  | idle
  | reply
  | report (f : Frame)
  deriving DecidableEq, Repr

/-- The host link and the request processor (R158, R161, R163, R164, R166, R173). -/
structure HostLink where
  rate : Nat
  framer : Framer
  intake : List Frame
  hold : Option Hold
  /-- The reply queue, oldest first; a reply being sent stays at its front until its last stop bit (R166). -/
  replies : List Frame
  tx : Tx
  faultCount : Nat
  /-- The receive line is held low by a break (R167, R168). -/
  rxLow : Bool
  /-- The character in progress of a frame that a resync has cut off, with its place in the frame (R168 step 4). It stands from the
  resync until the receive line returns high (log entry 29). -/
  finishing : Option (Nat × Octet)
  deriving DecidableEq, Repr

/-- The RESET pin: high, or held low with the cause that PART_READY will carry at its release (R172). -/
inductive ResetPin where
  | high
  | low (cause : RestartCause)
  deriving DecidableEq, Repr

/-! ## The whole part -/

/-- The state of the part, and the queue of commands waiting for it. -/
structure State where
  line : LineEngine
  poll : PollUnit
  notes : NoteUnit
  slots : SlotUnit
  /-- The Circuit Table (R79): place n holds circuit n, or nothing. -/
  circuits : List (Option Circuit)
  /-- The four lanes (R73, R120, R124). -/
  lanes : List Lane
  /-- The packet-handle counter (R121): the last handle given, 0 when none has been. -/
  lastPacketHandle : Nat
  window : WindowUnit
  rx : Receiver
  mailboxes : List Mailbox
  /-- The pool's free count (R108). -/
  free : Nat
  rep : ReportUnit
  link : HostLink
  pin : ResetPin
  /-- The MODEL's own: open choices taken so far, the argument of Config.replyFirst and of Config.cutPlace (log entries 1
  and 29). -/
  choices : Nat
  /-- The commands waiting, first in first out. -/
  pending : List Instr
  deriving DecidableEq, Repr

/-- Nothing in the spec stops the part: requests that do not apply are answered (R165), faults of the line and of the link
are states and counts (R12, R162). So no meaning ends in a fault, and the type has no constructor. -/
inductive Fault where
  deriving DecidableEq, Repr

/-- Why a command has no meaning. -/
inductive Refusal where
  /-- Raised by an arm of exec for a row that has no meaning yet; safe. No arm raises it. -/
  | notModelled (mnemonic : String)
  deriving DecidableEq, Repr

/-- The line engine after reset (R21). -/
def LineEngine.fresh : LineEngine where
  state := .stopped
  startCount := 0
  cycleCounter := 0
  cycleTotal := 0
  mismatchCount := 0
  quietCount := 0
  quietReported := false
  faultReason := none
  settings :=
    { missLimit := 3, windowLimit := 64, probeInterval := 16, quietLimit := 64, receiveReserve := 32 }
  cycleOpen := false
  driven := List.replicate Config.slots idleOctet
  sampleDown := List.replicate Config.payloadSlots none
  sampleUp := List.replicate Config.payloadSlots none

/-- The receiver after reset (R157). -/
def Receiver.fresh : Receiver where
  state := .idle
  record := .empty
  stored := 0
  badCheck := 0
  foreign := 0
  long := 0
  unclaimed := 0
  cutShort := 0

/-- The report unit after a reset (R187): one PART_READY in the Report Queue. -/
def ReportUnit.fresh (cause : RestartCause) : ReportUnit where
  queue := [.partReady cause]
  window := []
  nextSeq := 0
  resend := []
  entries := []
  lostCount := 0
  kindsLost := 0

/-- The host link after a reset (R174), at the rate given. -/
def HostLink.fresh (rate : Nat) : HostLink where
  rate := rate
  framer := .hunting
  intake := []
  hold := none
  replies := []
  tx := .idle
  faultCount := 0
  rxLow := false
  finishing := none

/-- Every block at its reset value (R21, R48, R64, R89, R107, R118, R139, R157, R174, R187), before the transmitter starts
PART_READY. -/
def State.fresh (cause : RestartCause) (rate : Nat) : State where
  line := .fresh
  poll :=
    { stations := List.replicate Config.stations .fresh, pollPointer := 0, probePointer := 0, call := .none }
  notes := { store := [], callOut := none, lastHandle := 0 }
  slots :=
    { down := List.replicate Config.payloadSlots none, up := List.replicate Config.payloadSlots none, reclaim := [] }
  circuits := List.replicate Config.circuits none
  lanes := List.replicate Config.lanes .fresh
  lastPacketHandle := 0
  window := { window := none, queue := [], bidCollisions := 0, ignoredBids := 0 }
  rx := .fresh
  mailboxes := List.replicate Config.mailboxes .fresh
  free := Config.poolBlocks
  rep := .fresh cause
  link := .fresh rate
  pin := .high
  choices := 0
  pending := []

/-- The frame of PART_READY with cause POWER_ON and sequence number 0 (R172, 11.6). -/
def partReadyFrame : Frame where
  kind := 0x40#8
  tag := 0x00#8
  body := [0x00#8, 0x04#8, 0x30#8, 0x01#8]

/-- The part right after power-on has completed: every block at its reset value, rate 115,200, and PART_READY, "sent with
sequence number 0 as soon as the transmitter is free", going out on the idle transmitter (R166, R172); log entry 8. -/
def State.reset : State :=
  { State.fresh .powerOn 0 with
    rep :=
      { ReportUnit.fresh .powerOn with
        queue := [], window := [{ seq := 0, report := .partReady .powerOn }], nextSeq := 1 }
    link := { HostLink.fresh 0 with tx := .report partReadyFrame } }

end Sys2Proof.Machine
end

