-- ==== Sys2Proof/Machine/Operands.lean ====
section
/-! DEFINITION. The octets of fields, the check of R119, the link frame on the wire (R160) and the layouts of request
bodies (11.4, R190). -/

namespace Sys2Proof.Machine

/-! ## Fields sent (chapter 11: most significant octet first; absent is all ones, R189) -/

/-- A one-octet field. -/
def o8 (n : Nat) : List Octet := [BitVec.ofNat 8 n]

/-- A two-octet field. -/
def o16 (n : Nat) : List Octet := [BitVec.ofNat 8 (n / 256), BitVec.ofNat 8 n]

/-- A four-octet field. -/
def o32 (n : Nat) : List Octet := o16 (n / 65536) ++ o16 (n % 65536)

/-- A one-octet field that may be absent (R189). -/
def o8? : Option Nat → List Octet
  | some n => o8 n
  | none => [0xFF#8]

/-- A two-octet field that may be absent (R189). -/
def o16? : Option Nat → List Octet
  | some n => o16 n
  | none => [0xFF#8, 0xFF#8]

/-- A flag octet (11.3). -/
def oFlag (b : Bool) : List Octet := [if b then 0x01#8 else 0x00#8]

/-- A list: a count octet and that many items (chapter 11). -/
def oList (item : α → List Octet) (l : List α) : List Octet := o8 l.length ++ l.flatMap item

/-- A list of slots. -/
def oSlots (l : List Nat) : List Octet := oList o8 l

/-! ## Fields received -/

/-- The number in two octets, most significant first. -/
def nat16 (hi lo : Octet) : Nat := hi.toNat * 256 + lo.toNat

/-- A flag octet: 00h or 01h, nothing else (R189). -/
def flag? (o : Octet) : Option Bool :=
  if o = 0x00#8 then some false else if o = 0x01#8 then some true else none

/-- An address from 1 to 30 (R22). -/
def isStation (a : Nat) : Bool := decide (1 ≤ a ∧ a ≤ Config.stations)

/-- A list of payload slots with no slot twice (R74, R80). -/
def slotListOk (l : List Nat) : Bool := l.all isPayloadSlot && decide l.Nodup

/-- A precedence from 1 to 7 (R65). -/
def isPrec (p : Nat) : Bool := decide (1 ≤ p ∧ p ≤ 7)

/-- The payload slots of a list, in ascending order. -/
def ascending (l : List Nat) : List Nat :=
  (List.range' Config.firstPayload Config.payloadSlots).filter fun s => decide (s ∈ l)

/-! ## The check (R119): x^16 + x^12 + x^5 + 1, preset to FFFFh, most significant bit first, not inverted -/

/-- One bit time of the check register. -/
def crcShift (c : BitVec 16) : BitVec 16 :=
  if c.msb then (c <<< 1) ^^^ 0x1021#16 else c <<< 1

/-- `n` bit times. -/
def crcShifts : Nat → BitVec 16 → BitVec 16
  | 0, c => c
  | n + 1, c => crcShifts n (crcShift c)

/-- The preset of the register (R119). -/
def crcPreset : BitVec 16 := 0xFFFF#16

/-- The register after one more octet. -/
def crcOctet (c : BitVec 16) (o : Octet) : BitVec 16 := crcShifts 8 (c ^^^ (o.setWidth 16 <<< 8))

/-- The register after a run of octets, from `c`. -/
def crcFrom (c : BitVec 16) (os : List Octet) : BitVec 16 := os.foldl crcOctet c

/-- The check of a run of octets. -/
def crc (os : List Octet) : BitVec 16 := crcFrom crcPreset os

/-- The high octet of a 16-bit register. -/
def hi8 (w : BitVec 16) : Octet := (w >>> 8).setWidth 8

/-- The low octet of a 16-bit register. -/
def lo8 (w : BitVec 16) : Octet := w.setWidth 8

/-- A 16-bit register from its two octets. -/
def word16 (hi lo : Octet) : BitVec 16 := (hi.setWidth 16 <<< 8) ||| lo.setWidth 16

/-! ## The link frame (R159, R160) -/

/-- The start octet and the escape octet (R159, R160). -/
def startOctet : Octet := 0xD5#8
def escapeOctet : Octet := 0xD6#8

/-- "the octet with its sixth bit inverted": D5h becomes F5h, D6h becomes F6h (R160). -/
def escapedForm (o : Octet) : Octet := o ^^^ 0x20#8

/-- One octet after the start octet, as sent (R160). -/
def escapeOne (o : Octet) : List Octet :=
  if o = startOctet ∨ o = escapeOctet then [escapeOctet, escapedForm o] else [o]

/-- The length, kind, tag and body octets (R159): what the check covers (R160). -/
def Frame.content (f : Frame) : List Octet := o16 (f.body.length + 2) ++ [f.kind, f.tag] ++ f.body

/-- The octets of a frame after the start octet, before escaping. -/
def Frame.unescaped (f : Frame) : List Octet :=
  f.content ++ [hi8 (crc f.content), lo8 (crc f.content)]

/-- A frame as it goes out on the wire (R160). -/
def Frame.wire (f : Frame) : List Octet := startOctet :: f.unescaped.flatMap escapeOne

/-! ## Characters on the host link (R158); a level is `true` when the line is high -/

/-- The level of a line on which no character is going out: "Between characters the transmit line is held high" (R158). -/
def idleLevel : Bool := true

/-- The eight bits of an octet, least significant bit first. -/
def octetBits (o : Octet) : List Bool := (List.range 8).map fun i => o.getLsbD i

/-- The levels of a character, one for each of its 10 bit times: the start bit low, the eight data bits, least significant bit
first, the stop bit high; no parity bit (R158). -/
def characterLevels (o : Octet) : List Bool := [false] ++ octetBits o ++ [true]

/-- The octet of eight bits, least significant bit first: `octetBits` read back. -/
def octetOfBits (bits : List Bool) : Octet := BitVec.ofNat 8 (bits.foldr (fun b n => 2 * n + b.toNat) 0)

/-- The character that 10 bit times of the receive line carry, when they begin with a low start bit: its octet, and whether its
stop bit is high (R158, R161). These are the operands of RX_CHARACTER (log entry 23). -/
def readCharacter : List Bool → Option (Octet × Bool)
  | [start, b₀, b₁, b₂, b₃, b₄, b₅, b₆, b₇, stop] =>
    if start then none else some (octetOfBits [b₀, b₁, b₂, b₃, b₄, b₅, b₆, b₇], stop)
  | _ => none

/-! ## The bits of a slot on the line (R1); a bit is `true` when the pair carries a one -/

/-- The bit a pair carries while nothing drives it: "reads FFh in every bit position" (R1, R2). -/
def undrivenBit : Bool := true

/-- The bits of a slot, one for each of its 8 bit times: "most significant bit first" (R1, 11.1). -/
def slotBits (o : Octet) : List Bool := (octetBits o).reverse

/-- The octet that the 8 bit times of a slot carry (R1): how an up slot, or the readback of a down slot, is read into the octet
that is a command's operand (log entries 4 and 17). -/
def octetOfSlotBits (bits : List Bool) : Octet := octetOfBits bits.reverse

/-! ## Request bodies with variable layouts (R190) -/

/-- The fields of a LANE.SET body, unchecked. -/
structure LaneSetFields where
  lane : Nat
  prec : Nat
  cutThrough : Octet
  down : List Nat
  up : List Nat
  deriving DecidableEq, Repr

/-- The size test of LANE.SET: at least 5 octets, the down count 0 to 43, and exactly 5 + down count + up count octets. -/
def parseLaneSet : List Octet → Option LaneSetFields
  | lane :: prec :: cut :: n :: rest =>
    if n.toNat ≤ Config.payloadSlots then
      match rest.drop n.toNat with
      | m :: tail =>
        if tail.length = m.toNat then
          some
            { lane := lane.toNat, prec := prec.toNat, cutThrough := cut
              down := (rest.take n.toNat).map (·.toNat), up := tail.map (·.toNat) }
        else none
      | [] => none
    else none
  | _ => none

/-- The fields of a CIRCUIT.OPEN body, unchecked. -/
structure CircuitOpenFields where
  source : Nat
  width : Nat
  prec : Nat
  up : List Nat
  down : List Nat
  deriving DecidableEq, Repr

/-- The size test of CIRCUIT.OPEN: exactly 3 + 2 x width octets. A width outside 1 to 4 passes the size test with 3 octets
or more and is then BAD_ARG by R80; both answers are the same frame, so the body is refused here. -/
def parseCircuitOpen : List Octet → Option CircuitOpenFields
  | source :: width :: prec :: lists =>
    if (1 ≤ width.toNat ∧ width.toNat ≤ Config.circuitWidth) ∧ lists.length = 2 * width.toNat then
      some
        { source := source.toNat, width := width.toNat, prec := prec.toNat
          up := (lists.take width.toNat).map (·.toNat), down := (lists.drop width.toNat).map (·.toNat) }
    else none
  | _ => none

/-! ## Request bodies built from fields (11.4), for the host's side of a statement or a test -/

/-- The body of a LANE.SET. -/
def laneSetBody (lane prec : Nat) (cutThrough : Bool) (down up : List Nat) : List Octet :=
  o8 lane ++ o8 prec ++ oFlag cutThrough ++ oSlots down ++ oSlots up

/-- The body of a CIRCUIT.OPEN. -/
def circuitOpenBody (source prec : Nat) (up down : List Nat) : List Octet :=
  o8 source ++ o8 up.length ++ o8 prec ++ up.flatMap o8 ++ down.flatMap o8

/-- The body of a PACKET.SEND. -/
def packetSendBody (lane destination : Nat) (port : Octet) (declared : Nat) (segment : List Octet) : List Octet :=
  o8 lane ++ o8 destination ++ [port] ++ o16 declared ++ segment

end Sys2Proof.Machine
end

