-- ==== Sys2Proof/Machine/Flags.lean ====
section
/-! DEFINITION. The encodings of enumerations (11.3), the saturating counters, and the octets of the header slots (11.1). -/

namespace Sys2Proof.Machine

/-! ## Counters -/

/-- A counter that stops at `limit` (R16, R47, R106, R151, R156, R173, R176 to R178). -/
def satAdd (limit n k : Nat) : Nat := min limit (n + k)

/-- One more on a 16-bit counter that saturates. -/
def sat16 (n : Nat) : Nat := satAdd 65535 n 1

/-! ## Result codes (R165, 11.3) and the limits a FULL reply names -/

inductive Result where
  | ok | badArg | badState | busy | full | noSpace | refused | inUse | unknown | late | unknownRequest
  deriving DecidableEq, Repr

def Result.code : Result → Octet
  | .ok => 0
  | .badArg => 1
  | .badState => 2
  | .busy => 3
  | .full => 4
  | .noSpace => 5
  | .refused => 6
  | .inUse => 7
  | .unknown => 8
  | .late => 9
  | .unknownRequest => 10

inductive FullLimit where
  | queue | store | station | completions
  deriving DecidableEq, Repr

def FullLimit.code : FullLimit → Octet
  | .queue => 0
  | .store => 1
  | .station => 2
  | .completions => 3

/-! ## Enumerations (11.3): "Each value is the position of its name in the lists below, counting from 0" -/

def LineState.code : LineState → Nat
  | .stopped => 0
  | .starting => 1
  | .running => 2
  | .faulted => 3

def LineReason.code : LineReason → Nat
  | .request => 0
  | .readback => 1
  | .runningReached => 2

def StationState.code : StationState → Nat
  | .free => 0
  | .offline => 1
  | .joining => 2
  | .online => 3
  | .silent => 4
  | .barred => 5

def StationReason.code : StationReason → Nat
  | .answered => 0
  | .missLimit => 1
  | .lineDown => 2
  | .bar => 3
  | .withdraw => 4

def NoteState.code : NoteState → Nat
  | .queued => 0
  | .inFlight => 1

def NoteOutcome.code : NoteOutcome → Nat
  | .delivered => 0
  | .cancelled => 1
  | .noAck => 2
  | .busyTimeout => 3
  | .stationLost => 4
  | .lineStopped => 5

def PacketState.code : PacketState → Nat
  | .filling => 0
  | .ready => 1
  | .sending => 2
  | .aborting => 3

def EngineState.code : EngineState → Nat
  | .idle => 0
  | .sending => 1
  | .aborting => 2
  | .gap => 3

def PacketOutcome.code : PacketOutcome → Nat
  | .sent => 0
  | .cancelled => 1
  | .aborted => 2

def PacketReason.code : PacketReason → Nat
  | .cancel => 0
  | .laneReset => 1
  | .underrun => 2
  | .slotsLost => 3
  | .lineStopped => 4

def CircuitState.code : CircuitState → Nat
  | .live => 0
  | .muted => 1
  | .displaced => 2
  | .closed => 3

def CircuitReason.code : CircuitReason → Nat
  | .slotLost => 0
  | .slotsRegained => 1
  | .sourceOnline => 2
  | .sourceLeft => 3
  | .noReclaim => 4

def SlotEventKind.code : SlotEventKind → Nat
  | .lost => 0
  | .regained => 1

def Dir.code : Dir → Nat
  | .down => 0
  | .up => 1

def ReceiverState.code : ReceiverState → Nat
  | .idle => 0
  | .header => 1
  | .body => 2
  | .check => 3
  | .drain => 4

def ReceiveFault.code : ReceiveFault → Nat
  | .empty => 0
  | .overrun => 1
  | .slotsLost => 2
  | .foreign => 3
  | .long => 4
  | .unclaimed => 5
  | .badCheck => 6

def MailboxMode.code : MailboxMode → Nat
  | .either => 0
  | .masked => 1
  | .all => 2

/-- The mode an octet names, if any (R152, R189). -/
def MailboxMode.ofOctet (o : Octet) : Option MailboxMode :=
  if o = 0#8 then some .either else if o = 1#8 then some .masked else if o = 2#8 then some .all else none

def MatchKind.code : MatchKind → Nat
  | .a => 0
  | .b => 1
  | .masked => 2
  | .general => 3
  | .all => 4

def RestartCause.code : RestartCause → Nat
  | .powerOn => 0
  | .pin => 1
  | .restart => 2

/-- The owner octet: 00h for none, 10h to 13h for lanes, 20h to 2Bh for circuits (11.3). -/
def ownerCode : Option Owner → Nat
  | none => 0
  | some (.lane n) => 0x10 + n
  | some (.circuit n) => 0x20 + n

/-! ## Header slots (11.1, R188) -/

def NoteMark.code : NoteMark → Nat
  | .none => 0
  | .more => 1
  | .endMark => 2
  | .abort => 3

/-- Slot 0: address in bits 7 to 3, mark in bits 2 and 1, toggle in bit 0. -/
def callOctet (address : Nat) (mark : NoteMark) (toggle : Bool) : Octet :=
  BitVec.ofNat 8 (8 * address + 2 * mark.code + if toggle then 1 else 0)

/-- Slot 4: the owner's address in bits 7 to 3, or 00h. -/
def grantOctet (owner : Option Nat) : Octet := BitVec.ofNat 8 (8 * owner.getD 0)

/-- Slot 2, classed (R26): a miss, a malformed answer, or a valid one with its four fields. -/
inductive Answer where
  | miss
  | malformed
  | valid (code : Nat) (echo request busy : Bool)
  deriving DecidableEq, Repr

/-- The condition field is bits 7 to 3, the echo bit 2, the request flag bit 1, the busy flag bit 0 (11.1). -/
def classifyAnswer (o : Octet) : Answer :=
  if o = idleOctet then .miss
  else if o.toNat / 8 = 31 then .malformed
  else .valid (o.toNat / 8) (o.getLsbD 2) (o.getLsbD 1) (o.getLsbD 0)

/-- Slot 3, classed (R91). -/
inductive Bid where
  | none
  | collision
  | station (address : Nat)
  deriving DecidableEq, Repr

/-- The number of one bits among the five bits of an address. -/
def onesOf5 (n : Nat) : Nat := n % 2 + n / 2 % 2 + n / 4 % 2 + n / 8 % 2 + n / 16 % 2

/-- "The check that belongs to an address is 7 minus the number of one bits in the address" (R91). -/
def bidCheck (address : Nat) : Nat := 7 - onesOf5 address

/-- The classes of R91. -/
def classifyBid (o : Octet) : Bid :=
  if o = idleOctet then .none
  else
    let address := o.toNat / 8
    if o.toNat % 8 = bidCheck address ∧ isStation address = true then .station address else .collision

end Sys2Proof.Machine
end

