-- ==== Sys2Proof/Machine/Ops.lean ====
section
/-! DEFINITION. Operations that all blocks share: access to the tables, the report unit and its Completion List
(chapter 10), the transmit arbiter (R166), and the taking of a request (R164). -/

namespace Sys2Proof.Machine

/-! ## Access to the tables -/

/-- The entry of a station; an address with no entry reads as a FREE one. -/
def State.station (s : State) : Nat → Station
  | 0 => .fresh
  | n + 1 => (s.poll.stations[n]?).getD .fresh

/-- Change one entry of the Station Table. -/
def State.modStation (s : State) (a : Nat) (f : Station → Station) : State :=
  match a with
  | 0 => s
  | n + 1 => { s with poll := { s.poll with stations := s.poll.stations.modify n f } }

/-- A lane. -/
def State.lane (s : State) (l : Nat) : Lane := (s.lanes[l]?).getD .fresh

/-- Change one lane. -/
def State.modLane (s : State) (l : Nat) (f : Lane → Lane) : State := { s with lanes := s.lanes.modify l f }

/-- An open circuit, or none. -/
def State.circuit (s : State) (c : Nat) : Option Circuit := (s.circuits[c]?).join

/-- Replace one place of the Circuit Table. -/
def State.setCircuit (s : State) (c : Nat) (x : Option Circuit) : State := { s with circuits := s.circuits.set c x }

/-- A mailbox. -/
def State.mailbox (s : State) (m : Nat) : Mailbox := (s.mailboxes[m]?).getD .fresh

/-- Change one mailbox. -/
def State.modMailbox (s : State) (m : Nat) (f : Mailbox → Mailbox) : State :=
  { s with mailboxes := s.mailboxes.modify m f }

/-- What stands at a payload slot of a list with one place for each of slots 5 to 47. -/
def atSlot (l : List (Option α)) (slot : Nat) : Option α :=
  if Config.firstPayload ≤ slot then (l[slot - Config.firstPayload]?).join else none

/-- Replace what stands at a payload slot. -/
def setSlot (l : List (Option α)) (slot : Nat) (x : Option α) : List (Option α) :=
  if Config.firstPayload ≤ slot then l.set (slot - Config.firstPayload) x else l

/-- The Slot Map of one direction. -/
def SlotUnit.side (u : SlotUnit) : Dir → List (Option MapEntry)
  | .down => u.down
  | .up => u.up

/-- The map entry of a slot (R65). -/
def State.mapEntry (s : State) (d : Dir) (slot : Nat) : Option MapEntry := atSlot (s.slots.side d) slot

/-- Replace the map entry of a slot. -/
def State.setEntry (s : State) (d : Dir) (slot : Nat) (e : Option MapEntry) : State :=
  match d with
  | .down => { s with slots := { s.slots with down := setSlot s.slots.down slot e } }
  | .up => { s with slots := { s.slots with up := setSlot s.slots.up slot e } }

/-- The slots the map gives to an owner in one direction, ascending: a lane's held set (R73). -/
def State.held (s : State) (o : Owner) (d : Dir) : List Nat :=
  (List.range' Config.firstPayload Config.payloadSlots).filter fun slot =>
    (s.mapEntry d slot).any fun e => decide (e.owner = o)

/-- The cycle counter, as reports and stamps carry it. -/
def State.now (s : State) : BitVec 16 := s.line.cycleCounter

/-! ## The buffer pool's views (R108, R109, R117) -/

/-- Blocks of a body of `length` octets: max(1, length ÷ 32 rounded up) (R109). -/
def blocksFor (length : Nat) : Nat := max 1 ((length + (Config.blockSize - 1)) / Config.blockSize)

/-- Blocks held by a lane's transmit queue. -/
def Lane.held (l : Lane) : Nat := (l.queue.map fun p => blocksFor p.declared).sum

/-- Blocks held by a mailbox. -/
def Mailbox.held (m : Mailbox) : Nat := (m.records.map fun r => blocksFor r.length).sum

/-- Blocks held by the receive in progress: those of the packet in BODY and CHECK, else 0 (R140). -/
def Receiver.held (r : Receiver) : Nat :=
  match r.state with
  | .body | .check => blocksFor (r.record.length.getD 0)
  | .idle | .header | .drain => 0

/-- The transmit-held total. -/
def State.txHeld (s : State) : Nat := (s.lanes.map Lane.held).sum

/-- The mailbox-held total. -/
def State.mailHeld (s : State) : Nat := (s.mailboxes.map Mailbox.held).sum

/-! ## Reports (chapter 10, 11.6) -/

/-- The place of a report's kind in the table of 11.6; its kind octet is 40h plus this. -/
def Report.kindIndex : Report → Nat
  | .partReady .. => 0
  | .lineState .. => 1
  | .lineQuiet .. => 2
  | .stationState .. => 3
  | .stationHeard .. => 4
  | .condition .. => 5
  | .noteDone .. => 6
  | .packetDone .. => 7
  | .slotEvent .. => 8
  | .circuitState .. => 9
  | .rxFault .. => 10
  | .mailWaiting .. => 11
  | .mailDropped .. => 12
  | .linkFault .. => 13
  | .reportsLost .. => 14

/-- A cycle number in a report. -/
def oCycle (c : BitVec 16) : List Octet := o16 c.toNat

/-- The body of a report (11.6). -/
def Report.body : Report → List Octet
  | .partReady cause => o8 cause.code ++ o16 Config.partCode ++ o8 Config.revision
  | .lineState new left reason c => o8 new.code ++ o8 left.code ++ o8 reason.code ++ oCycle c
  | .lineQuiet count limit => o8 count ++ o8 limit
  | .stationState a new left reason c => o8 a ++ o8 new.code ++ o8 left.code ++ o8 reason.code ++ oCycle c
  | .stationHeard a code => o8 a ++ o8 code
  | .condition a accepted replaced skipped c => o8 a ++ o8 accepted ++ o8? replaced ++ o8 skipped ++ oCycle c
  | .noteDone d =>
    o16 d.handle ++ o8 d.station ++ o8 d.outcome.code ++ o8 d.length ++ o8 d.acknowledged ++ oCycle d.cycle
  | .packetDone d =>
    o16 d.handle ++ o8 d.lane ++ o8 d.destination ++ [d.port] ++ o16 d.declared ++ o8 d.outcome.code
      ++ o8? (d.reason.map (·.code)) ++ o16 d.bodySent ++ o16 d.received ++ oCycle d.cycle
  | .slotEvent lane dir slot event owner prec reclaim c =>
    o8 lane ++ o8 dir.code ++ o8 slot ++ o8 event.code ++ o8 (ownerCode (some owner)) ++ o8? prec
      ++ (match reclaim with | some b => oFlag b | none => [0xFF#8]) ++ oCycle c
  | .circuitState n source new left reason lost c =>
    o8 n ++ o8 source ++ o8 new.code ++ o8 left.code ++ o8 reason.code ++ o8? (lost.map (·.1.code))
      ++ o8? (lost.map (·.2)) ++ oCycle c
  | .rxFault f =>
    o8 f.fault.code ++ o8 f.owner ++ o8 f.lane ++ o8? (f.port.map (·.toNat)) ++ o16? f.length ++ o8 f.cyclesUsed
      ++ o8? f.slotLost ++ o8? (f.stationField.map (·.toNat)) ++ o16? (f.checks.map (·.1.toNat))
      ++ o16? (f.checks.map (·.2.toNat)) ++ oCycle f.cycle
  | .mailWaiting m source port length stamp => o8 m ++ o8 source ++ [port] ++ o16 length ++ oCycle stamp
  | .mailDropped m full noBuffer source port c =>
    o8 m ++ o16 full ++ o16 noBuffer ++ o8 source ++ [port] ++ oCycle c
  | .linkFault k =>
    o16 k.check ++ o16 k.length ++ o16 k.cutShort ++ o16 k.escape ++ o16 k.framing ++ o16 k.overrun ++ o16 k.total
  | .reportsLost count kinds c => o16 count ++ o16 kinds.toNat ++ oCycle c

/-- The frame of a numbered report (R159: the tag is the sequence number). -/
def SentReport.frame (r : SentReport) : Frame :=
  { kind := BitVec.ofNat 8 (0x40 + r.report.kindIndex), tag := r.seq, body := r.report.body }

/-- Fold into the report of `q` that satisfies `p` and has `k` such reports before it; none when there is no such report. -/
def foldInto (p : Report → Bool) (f : Report → Report) : Nat → List Report → Option (List Report)
  | _, [] => none
  | k, r :: q =>
    if p r then
      match k with
      | 0 => some (f r :: q)
      | k + 1 => (foldInto p f k q).map (r :: ·)
    else (foldInto p f k q).map (r :: ·)

/-- Is this a CONDITION report of the station (R176)? -/
def Report.isConditionOf (a : Nat) : Report → Bool
  | .condition a' .. => a' == a
  | _ => false

/-- Is this a MAIL_WAITING report of the mailbox (R177)? -/
def Report.isMailWaitingOf (m : Nat) : Report → Bool
  | .mailWaiting m' .. => m' == m
  | _ => false

/-- Is this a MAIL_DROPPED report of the mailbox (R177)? -/
def Report.isMailDroppedOf (m : Nat) : Report → Bool
  | .mailDropped m' .. => m' == m
  | _ => false

/-- Is this a LINK_FAULT report (R177)? -/
def Report.isLinkFault : Report → Bool
  | .linkFault .. => true
  | _ => false

/-- The counts of two LINK_FAULT reports together; the total is the new one's (R177). -/
def LinkFaultCounts.merge (old new : LinkFaultCounts) : LinkFaultCounts where
  check := satAdd 65535 old.check new.check
  length := satAdd 65535 old.length new.length
  cutShort := satAdd 65535 old.cutShort new.cutShort
  escape := satAdd 65535 old.escape new.escape
  framing := satAdd 65535 old.framing new.framing
  overrun := satAdd 65535 old.overrun new.overrun
  total := new.total

/-- What folding the second report into an unsent first one makes of the first (R176, R177). -/
def Report.fold (old new : Report) : Report :=
  match old, new with
  | .condition a _ replaced skipped _, .condition _ accepted _ skipped' c =>
    .condition a accepted replaced (satAdd 255 skipped (1 + skipped')) c
  | .mailDropped m full noBuffer source port c, .mailDropped _ full' noBuffer' _ _ _ =>
    .mailDropped m (satAdd 65535 full full') (satAdd 65535 noBuffer noBuffer') source port c
  | .linkFault k, .linkFault k' => .linkFault (k.merge k')
  | old, _ => old

/-- Coalescing (R176, R177): the queue with the report folded in, or none when it is not coalesced. A CONDITION is folded into
the second unsent one of its station, the other three kinds into the one unsent report of their key. -/
def coalesce (q : List Report) (r : Report) : Option (List Report) :=
  match r with
  | .condition a .. => foldInto (Report.isConditionOf a) (fun old => old.fold r) 1 q
  | .mailWaiting m .. => foldInto (Report.isMailWaitingOf m) (fun old => old.fold r) 0 q
  | .mailDropped m .. => foldInto (Report.isMailDroppedOf m) (fun old => old.fold r) 0 q
  | .linkFault .. => foldInto Report.isLinkFault (fun old => old.fold r) 0 q
  | _ => none

/-- "The queue is full when the reports it holds and the reports in the report window together number 64" (R175). -/
def ReportUnit.full (u : ReportUnit) : Bool := decide (Config.reportQueue ≤ u.queue.length + u.window.length)

/-- Append a report at the end of the queue. -/
def ReportUnit.append (u : ReportUnit) (r : Report) : ReportUnit := { u with queue := u.queue ++ [r] }

/-- A report is handed over: coalesced, else appended, else lost (R175, R178). -/
def ReportUnit.handOver (u : ReportUnit) (r : Report) : ReportUnit :=
  match coalesce u.queue r with
  | some q => { u with queue := q }
  | none =>
    if u.full then
      { u with lostCount := sat16 u.lostCount, kindsLost := u.kindsLost ||| (1#16 <<< r.kindIndex) }
    else u.append r

/-- The report a completion becomes (R180). -/
def Completion.report : Completion → Report
  | .note d => .noteDone d
  | .packet d => .packetDone d

/-- The transfer of R180, at most `n` steps: REPORTS_LOST first, then the oldest entries, while the queue has room. -/
def ReportUnit.transferSteps (now : BitVec 16) : Nat → ReportUnit → ReportUnit
  | 0, u => u
  | n + 1, u =>
    if u.full then u
    else if 0 < u.lostCount then
      transferSteps now n
        { u.append (.reportsLost u.lostCount u.kindsLost now) with lostCount := 0, kindsLost := 0 }
    else
      match u.entries with
      | [] => u
      | e :: rest => transferSteps now n { u.append e.report with entries := rest }

/-- The transfer of R180: it repeats until the queue is full or there is nothing left to move. -/
def ReportUnit.transfer (now : BitVec 16) (u : ReportUnit) : ReportUnit :=
  u.transferSteps now (u.entries.length + 1)

/-- Hand a report to the report unit. -/
def State.report (s : State) (r : Report) : State := { s with rep := s.rep.handOver r }

/-- Place an entry at the end of the Completion List (R179); the transfer runs at once (R180). -/
def State.complete (s : State) (e : Completion) : State :=
  { s with rep := { s.rep with entries := s.rep.entries ++ [e] }.transfer s.now }

/-- Completion List places held: the entries, and a reservation for each unfinished note and packet (R51, R122, R179). -/
def State.placesHeld (s : State) : Nat :=
  s.rep.entries.length + s.notes.store.length + (s.lanes.map fun l => l.queue.length).sum

/-- The live handles of notes (R50) and of packets (R121): unfinished, or with an entry on the Completion List. -/
def State.liveNotes (s : State) : List Nat :=
  s.notes.store.map (·.handle)
    ++ s.rep.entries.filterMap fun
      | .note d => some d.handle
      | .packet _ => none

def State.livePackets (s : State) : List Nat :=
  s.lanes.flatMap (fun l => l.queue.map (·.handle))
    ++ s.rep.entries.filterMap fun
      | .packet d => some d.handle
      | .note _ => none

/-- The number after a handle, wrapping from 65535 to 1 (R50, R121). -/
def handleAfter (h : Nat) : Nat := if h < 65535 then h + 1 else 1

/-- The first number after `last` that names nothing live, in at most `n` + 1 tries. -/
def searchHandle (live : List Nat) : Nat → Nat → Nat
  | 0, last => handleAfter last
  | n + 1, last => if handleAfter last ∈ live then searchHandle live n (handleAfter last) else handleAfter last

/-- The handle to give next (R50, R121); as many tries as there are live handles are enough. -/
def nextHandle (live : List Nat) (last : Nat) : Nat := searchHandle live live.length last

/-! ## The transmit arbiter (R166, R181, R184) -/

/-- A report is available: one to resend, or one at the front of the queue with room in the window (R181, R184). -/
def ReportUnit.available (u : ReportUnit) : Bool :=
  !u.resend.isEmpty || (decide (u.window.length < Config.reportWindow) && !u.queue.isEmpty)

/-- The next report starts going out: a resend in its place (R184), else the front of the queue, which enters the window
with the next sequence number (R181). -/
def State.startReport (s : State) : State :=
  match s.rep.resend, s.rep.queue with
  | x :: rest, _ => { s with rep := { s.rep with resend := rest }, link := { s.link with tx := .report x.frame } }
  | [], r :: q =>
    let sent : SentReport := { seq := s.rep.nextSeq, report := r }
    { s with
      rep := { s.rep with queue := q, window := s.rep.window ++ [sent], nextSeq := s.rep.nextSeq + 1 }
      link := { s.link with tx := .report sent.frame } }
  | [], [] => s

/-- The oldest reply starts going out. -/
def State.startReply (s : State) : State := { s with link := { s.link with tx := .reply } }

/-- The end of every event: an idle transmitter starts a frame that has become available; when a reply and a report have
become available together either may start, by the free value (R166). No frame starts while the receive line is low (R168)
or the RESET pin is held low (R172). -/
def State.arbitrate (s : State) : State :=
  if s.pin = .high ∧ s.link.rxLow = false ∧ s.link.tx = .idle then
    match s.link.replies.isEmpty, s.rep.available with
    | true, false => s
    | false, false => s.startReply
    | true, true => s.startReport
    | false, true =>
      let s' := { s with choices := s.choices + 1 }
      if Config.replyFirst s.choices then s'.startReply else s'.startReport
  else s

/-- The choice at the end of a frame: the oldest reply, else a report, else the transmitter is idle (R166). -/
def State.startNext (s : State) : State :=
  let s := { s with link := { s.link with tx := .idle } }
  if !s.link.replies.isEmpty then s.startReply
  else if s.rep.available then s.startReport
  else s

/-- The frame being sent, if any. -/
def HostLink.txFrame (l : HostLink) : Option Frame :=
  match l.tx with
  | .idle => none
  | .reply => l.replies.head?
  | .report f => some f

/-- The frame going out, if any. -/
def State.txFrame (s : State) : Option Frame := s.link.txFrame

/-- The octet that the character at a place of the frame being sent carries; once a resync has cut the frame off, its character
in progress is the only one left (R168 step 4). -/
def HostLink.txOctet (l : HostLink) (place : Nat) : Option Octet :=
  match l.txFrame with
  | some f => f.wire[place]?
  | none => l.finishing.bind fun c => if c.1 = place then some c.2 else none

/-- The level of the transmit line (R158, R168, R172). `none`: a moment between characters, or with no frame going out.
`some (k, b)`: bit time `b` of the `k`-th character of the frame going out, or cut off. What carries no bit of a character is
high. -/
def State.transmitLevel (s : State) (moment : Option (Nat × Nat)) : Bool :=
  (moment.bind fun m => do
    let octet ← s.link.txOctet m.1
    (characterLevels octet)[m.2]?).getD idleLevel

/-! ## Taking a request (R164) -/

/-- What a request's owner answers: a result code and the fields after it (R165). -/
abbrev Answered := State × List Octet

/-- A result with no fields. -/
def answer (s : State) (r : Result) (fields : List Octet := []) : Answered := (s, r.code :: fields)

/-- The frame leaves the intake (R164), when a request can be taken: no request is held, the reply queue has a place, the
part is not held in reset (R172), and the frame is the oldest in the intake. With an empty intake the command stands for the
arrival of its frame as well, unless the receive line is low (log entry 2). None: the request cannot be taken. -/
def State.takeFrame (s : State) (f : Frame) : Option State :=
  if s.pin = .high ∧ s.link.hold = none ∧ s.link.replies.length < Config.replyQueue then
    match s.link.intake with
    | [] => if s.link.rxLow then none else some s
    | g :: rest => if g = f then some { s with link := { s.link with intake := rest } } else none
  else none

/-- The reply joins the end of the reply queue: the kind that answers the request, the request's tag, the result and its
fields (R164). -/
def State.queueReply (s : State) (kind tag : Octet) (body : List Octet) : State :=
  { s with link := { s.link with replies := s.link.replies ++ [{ kind := kind, tag := tag, body := body }] } }

/-- The kind that answers a request (11.2): the request kind plus 80h, or 80h for a kind that is not a request kind. -/
def replyKind (kind : Octet) : Octet := if isRequestKind kind then kind + 0x80#8 else 0x80#8

/-- A request is taken, carried out by its owner, answered, and the transmitter is given its choice (R164, R166). A command
whose request cannot be taken changes nothing (log entry 11). -/
def serve (f : Frame) (work : State → Answered) (s : State) : Host.Outcome State Fault Refusal :=
  match s.takeFrame f with
  | none => .next s
  | some s₁ => .next (((work s₁).1.queueReply (replyKind f.kind) f.tag (work s₁).2).arbitrate)

/-- An event of the part: it happens, and the transmitter is given its choice (R166). -/
def event (s : State) : Host.Outcome State Fault Refusal := .next s.arbitrate

end Sys2Proof.Machine
end

