-- ==== Sys2Proof/Machine/Notes.lean ====
section
/-! DEFINITION. The note unit's work (chapter 3): calling note octets, judging answers, finishing notes. -/

namespace Sys2Proof.Machine

/-- The notes held for a station, oldest first (R49). -/
def State.notesOf (s : State) (a : Nat) : List Note := s.notes.store.filter fun n => n.station == a

/-- The note a handle names in the Note Store. -/
def State.note? (s : State) (h : Nat) : Option Note := s.notes.store.find? fun n => n.handle == h

/-- Change the note a handle names. -/
def State.modNote (s : State) (h : Nat) (f : Note → Note) : State :=
  { s with notes := { s.notes with store := s.notes.store.map fun n => if n.handle = h then f n else n } }

/-- A note finishes (R58): abort pending when it was IN_FLIGHT and is not DELIVERED (R57), it leaves the store, and its
completion is placed. -/
def State.finishNote (s : State) (n : Note) (outcome : NoteOutcome) : State :=
  let s₁ :=
    if n.state = .inFlight ∧ outcome ≠ .delivered then s.modStation n.station fun t => { t with abortPending := true }
    else s
  let s₂ := { s₁ with notes := { s₁.notes with store := s₁.notes.store.filter fun m => m.handle != n.handle } }
  s₂.complete <| .note
    { handle := n.handle, station := n.station, outcome := outcome, length := n.octets.length
      acknowledged := n.nextIndex, cycle := s.now }

/-- Several notes finish on one event, in acceptance order (R58). -/
def State.finishNotes (s : State) (ns : List Note) (outcome : NoteOutcome) : State :=
  ns.foldl (fun s n => s.finishNote n outcome) s

/-- Every note held for a station finishes STATION_LOST (R61). -/
def State.loseNotes (s : State) (a : Nat) : State := s.finishNotes (s.notesOf a) .stationLost

/-- The note unit's part of the line-down effects (R62): each IN_FLIGHT note finishes LINE_STOPPED, stations ascending. -/
def State.stopNotes (s : State) : State :=
  s.finishNotes
    ((List.range' 1 Config.stations).flatMap fun a => (s.notesOf a).filter fun n => decide (n.state = .inFlight))
    .lineStopped

/-- What the note unit puts in a call (R52): mark, toggle, note octet, and the note named in the call-out record. -/
structure NoteCall where
  mark : NoteMark
  toggle : Bool
  octet : Octet
  note : Option (Nat × Nat)
  deriving DecidableEq, Repr

/-- The contents of a ring poll of an ONLINE station (R52). -/
def State.noteCall (s : State) (a : Nat) : NoteCall :=
  let t := s.station a
  if t.abortPending then { mark := .abort, toggle := t.noteToggle, octet := idleOctet, note := none }
  else
    match s.notesOf a with
    | [] => { mark := .none, toggle := t.noteToggle, octet := idleOctet, note := none }
    | n :: _ =>
      { mark := if n.nextIndex + 1 < n.octets.length then .more else .endMark
        toggle := !t.noteToggle
        octet := (n.octets[n.nextIndex]?).getD idleOctet
        note := some (n.handle, n.nextIndex) }

/-- The call goes out: the call-out record is kept, and a QUEUED head note whose octet is called becomes IN_FLIGHT with the
station's busy run and unacked polls set to 0 (R52). -/
def State.callNote (s : State) (a : Nat) : State :=
  let c := s.noteCall a
  let s₁ :=
    { s with notes := { s.notes with callOut := some { station := a, mark := c.mark, toggle := c.toggle, note := c.note } } }
  match c.note.bind fun p => s.note? p.1 with
  | some n =>
    if n.state = .queued then
      (s₁.modNote n.handle fun m => { m with state := .inFlight }).modStation a fun t =>
        { t with busyRun := 0, unackedPolls := 0 }
    else s₁
  | none => s₁

/-- The note named in the call-out record, when it is still IN_FLIGHT (R53). -/
def State.calledNote (s : State) : Option Note :=
  match s.notes.callOut with
  | some c =>
    match c.note.bind fun p => s.note? p.1 with
    | some n => if n.state = .inFlight then some n else none
    | none => none
  | none => none

/-- A valid answer of an ONLINE station to a MORE or END call whose note is still IN_FLIGHT: acknowledged (R53), busy (R54)
or with the wrong echo (R55). -/
def State.judgeOctet (s : State) (a : Nat) (c : CallOut) (n : Note) (echo busy : Bool) : State :=
  let t := s.station a
  if busy then
    let s₁ := s.modStation a fun t => { t with busyRun := t.busyRun + 1 }
    if Config.busyLimit ≤ t.busyRun + 1 then s₁.finishNote n .busyTimeout else s₁
  else if echo = c.toggle then
    let n' : Note := { n with nextIndex := n.nextIndex + 1 }
    let s₁ := s.modStation a fun t => { t with noteToggle := c.toggle, busyRun := 0, unackedPolls := 0 }
    let s₂ := s₁.modNote n.handle fun _ => n'
    if c.mark = .endMark then s₂.finishNote n' .delivered else s₂
  else
    let s₁ := s.modStation a fun t => { t with unackedPolls := t.unackedPolls + 1, busyRun := 0 }
    if Config.unackedLimit ≤ t.unackedPolls + 1 then s₁.finishNote n .noAck else s₁

/-- The note unit judges a valid answer of an ONLINE station against its call-out record (R53 to R57). -/
def State.judgeNote (s : State) (a : Nat) (echo busy : Bool) : State :=
  match s.notes.callOut with
  | none => s
  | some c =>
    match c.mark with
    | .none => s.modStation a fun t => { t with noteToggle := echo }
    | .abort => s.modStation a fun t => { t with noteToggle := echo, abortPending := false }
    | .more | .endMark =>
      match s.calledNote with
      | some n => s.judgeOctet a c n echo busy
      | none => s

end Sys2Proof.Machine
end

