-- ==== Sys2Proof/Machine/Receive.lean ====
section
/-! DEFINITION. The receiver and the sort unit (chapter 8), the ends of windows (chapter 5), and the receive side of the
buffer pool (R111, R114). -/

namespace Sys2Proof.Machine

/-! ## Ends of windows (R100) -/

/-- The ways a window ends (5.6). -/
inductive WindowEnd where
  | complete | foreign | long | empty | overrun | lost
  | slotsLost (slot : Nat)
  | lineDown
  deriving DecidableEq, Repr

/-- The fault of the RX_FAULT report that the window unit queues, and the slot it carries (R105). -/
def WindowEnd.fault : WindowEnd → Option (ReceiveFault × Option Nat)
  | .empty => some (.empty, none)
  | .overrun => some (.overrun, none)
  | .slotsLost slot => some (.slotsLost, some slot)
  | .complete | .foreign | .long | .lost | .lineDown => none

/-- The ends at which the receiver has already dealt with its packet (R100). -/
def WindowEnd.byReceiver : WindowEnd → Bool
  | .complete | .foreign | .long => true
  | .empty | .overrun | .lost | .slotsLost _ | .lineDown => false

/-- An RX_FAULT report of the window `w` (R105, R155): owner, lane, cycles used, and port and length as far as the receiver
has taken them. -/
def State.rxFault (s : State) (w : Window) (fault : ReceiveFault) : RxFault where
  fault := fault
  owner := w.owner
  lane := w.lane
  port := s.rx.record.port
  length := s.rx.record.length
  cyclesUsed := w.cyclesUsed
  slotLost := none
  stationField := none
  checks := none
  cycle := s.now

/-- The receiver empties its record and returns to IDLE. -/
def State.idleReceiver (s : State) : State := { s with rx := { s.rx with state := .idle, record := .empty } }

/-- The receiver discards the packet in progress (R150, R114). -/
def State.discardPacket (s : State) : State :=
  if s.rx.state = .idle then s
  else
    { s with free := s.free + s.rx.held, rx := { s.rx with cutShort := sat16 s.rx.cutShort } }.idleReceiver

/-- The window ends (R100): its report, the receiver's discard, the record NONE. In NONE there is nothing to end. -/
def State.endWindow (s : State) (e : WindowEnd) : State :=
  match s.window.window with
  | none => s
  | some w =>
    let s₁ :=
      match e.fault with
      | some (fault, slot) => s.report (.rxFault { s.rxFault w fault with slotLost := slot })
      | none => s
    let s₂ := if e.byReceiver then s₁ else s₁.discardPacket
    { s₂ with window := { s₂.window with window := none } }

/-! ## The sort decision (R143 to R145) -/

/-- The port test of a filter (R144): the first test of the table that succeeds gives the match kind. -/
def Filter.portTest (f : Filter) (p : Octet) : Option MatchKind :=
  if f.general ∧ p = 0xFE#8 then some .general
  else
    match f.mode with
    | .either => if p = f.portA then some .a else if p = f.portB then some .b else none
    | .masked => if (p ^^^ f.portA) &&& ~~~f.portB = 0#8 then some .masked else none
    | .all => some .all

/-- What a filter makes of a packet with port `p` and station field `st` (R144, R145). -/
def Filter.accepts (f : Filter) (p st : Octet) : Option MatchKind :=
  if f.enabled then
    match f.restriction with
    | none => f.portTest p
    | some a => if st.toNat = a then f.portTest p else none
  else none

/-- The first mailbox, from number `n` on, whose filter accepts the packet. -/
def sortFrom (p st : Octet) : Nat → List Mailbox → Option (Nat × MatchKind)
  | _, [] => none
  | n, m :: rest =>
    match m.filter.accepts p st with
    | some k => some (n, k)
    | none => sortFrom p st (n + 1) rest

/-- The sort unit's answer (R144): the filters in ascending mailbox number. -/
def State.sort (s : State) (p st : Octet) : Option (Nat × MatchKind) := sortFrom p st 0 s.mailboxes

/-! ## Taking octets (R141 to R149) -/

/-- The receiver acts on a fault of the sort decision and enters DRAIN (R149). -/
def State.drain (s : State) (w : Window) (port : Octet) (fault : SortFault) (box : Option (Nat × MatchKind)) : State :=
  let s₁ :=
    match fault, box with
    | .unclaimed, _ | _, none =>
      { s with rx := { s.rx with unclaimed := sat16 s.rx.unclaimed } }.report (.rxFault (s.rxFault w .unclaimed))
    | .mailboxFull, some (m, _) =>
      (s.modMailbox m fun b => { b with dropped := sat16 b.dropped }).report
        (.mailDropped m 1 0 w.owner port s.now)
    | .noBuffer, some (m, _) =>
      (s.modMailbox m fun b => { b with dropped := sat16 b.dropped }).report
        (.mailDropped m 0 1 w.owner port s.now)
  { s₁ with
    rx :=
      { s₁.rx with
        state := .drain
        record :=
          { s₁.rx.record with fault := some fault, mailbox := box.map (·.1), matchKind := box.map (·.2) } } }

/-- The sort decision (R143): sort, room, blocks; the first that fails decides. -/
def State.decideSort (s : State) (w : Window) (port station : Octet) (length : Nat) : State :=
  match s.sort port station with
  | none => s.drain w port .unclaimed none
  | some (m, k) =>
    if Config.mailboxDepth ≤ (s.mailbox m).records.length then s.drain w port .mailboxFull (some (m, k))
    else if s.free < blocksFor length then s.drain w port .noBuffer (some (m, k))
    else
      { s with
        free := s.free - blocksFor length
        rx :=
          { s.rx with
            state := if length = 0 then .check else .body
            record := { s.rx.record with mailbox := some m, matchKind := some k } } }

/-- The header is judged when its fourth octet has been taken (R142, R143). -/
def State.judgeHeader (s : State) (w : Window) (port station : Octet) (length : Nat) : State :=
  if station.toNat ≠ w.owner then
    let s₁ :=
      { s with rx := { s.rx with foreign := sat16 s.rx.foreign } }.report
        (.rxFault { s.rxFault w .foreign with stationField := some station })
    s₁.idleReceiver.endWindow .foreign
  else if Config.largestBody < length then
    let s₁ := { s with rx := { s.rx with long := sat16 s.rx.long } }.report (.rxFault (s.rxFault w .long))
    s₁.idleReceiver.endWindow .long
  else s.decideSort w port station length

/-- The packet's record joins its mailbox, with MAIL_WAITING when the mailbox held none (R147, R151). -/
def State.storePacket (s : State) (port : Octet) (source length m : Nat) (k : MatchKind) : State :=
  let rec' : MailRecord :=
    { source := source, port := port, matchKind := k, length := length, stamp := s.rx.record.stamp
      body := s.rx.record.body }
  let s₁ := s.modMailbox m fun b => { b with records := b.records ++ [rec'] }
  let s₂ := { s₁ with rx := { s₁.rx with stored := sat16 s₁.rx.stored } }
  let s₃ :=
    if (s.mailbox m).records.isEmpty then s₂.report (.mailWaiting m source port length s.rx.record.stamp) else s₂
  s₃.idleReceiver.endWindow .complete

/-- A bad check (R148): the blocks are given back, the counters rise, RX_FAULT BAD_CHECK carries both checks. -/
def State.rejectPacket (s : State) (w : Window) (received : BitVec 16) : State :=
  let s₁ :=
    { s with free := s.free + s.rx.held, rx := { s.rx with badCheck := sat16 s.rx.badCheck } }
  let s₂ := s₁.modStation w.owner fun t => { t with badCheckPackets := sat16 t.badCheckPackets }
  let s₃ :=
    s₂.report (.rxFault { s.rxFault w .badCheck with checks := some (received, s.rx.record.check) })
  s₃.idleReceiver.endWindow .complete

/-- The record with one more octet taken. -/
def ReceiveRecord.take (r : ReceiveRecord) : ReceiveRecord := { r with taken := r.taken + 1 }

/-- The record with one more octet taken into the running check. -/
def ReceiveRecord.takeChecked (r : ReceiveRecord) (o : Octet) : ReceiveRecord :=
  { r with taken := r.taken + 1, check := crcOctet r.check o }

/-- Replace the receive record. -/
def State.withRecord (s : State) (st : ReceiverState) (r : ReceiveRecord) : State :=
  { s with rx := { s.rx with state := st, record := r } }

/-- An octet of the header after the port (R141). -/
def State.takeHeader (s : State) (w : Window) (o : Octet) : State :=
  let r := s.rx.record.takeChecked o
  match r.station, r.lengthHigh with
  | none, _ => s.withRecord .header { r with station := some o }
  | some _, none => s.withRecord .header { r with lengthHigh := some o }
  | some st, some hi =>
    let r' := { r with length := some (nat16 hi o) }
    (s.withRecord .header r').judgeHeader w (r.port.getD 0) st (nat16 hi o)

/-- The receiver takes an octet that the window unit passes to it (R141, R146, R149). -/
def State.receive (s : State) (w : Window) (o : Octet) : State :=
  let r := s.rx.record
  match s.rx.state with
  | .idle =>
    if o = idleOctet then s
    else
      s.withRecord .header
        { ReceiveRecord.empty with port := some o, taken := 1, check := crcOctet crcPreset o, stamp := s.now }
  | .header => s.takeHeader w o
  | .body =>
    let r' := { r.takeChecked o with body := r.body ++ [o] }
    s.withRecord (if r'.taken = r.length.getD 0 + 4 then .check else .body) r'
  | .check =>
    match r.checkHigh with
    | none => s.withRecord .check { r.take with checkHigh := some o }
    | some hi =>
      if word16 hi o = r.check then
        s.storePacket (r.port.getD 0) (r.station.getD 0).toNat (r.length.getD 0) (r.mailbox.getD 0)
          (r.matchKind.getD .all)
      else s.rejectPacket w (word16 hi o)
  | .drain =>
    if r.taken + 1 = r.length.getD 0 + 6 then s.idleReceiver.endWindow .complete
    else s.withRecord .drain r.take

/-! ## The window unit's octets (R97, R99) -/

/-- Is this the slot with the highest number in the up set? -/
def Window.lastSlot (w : Window) (slot : Nat) : Bool := w.upSet.all fun x => decide (x ≤ slot)

/-- The octet completes an idle cycle: it stands in the highest-numbered slot of the up set, it is FFh, and no packet has
started (R99). -/
def Window.idleCycle (w : Window) (slot : Nat) (o : Octet) : Bool :=
  !w.packetStarted && decide (o = idleOctet) && w.lastSlot slot

/-- An octet of the up set arrives: it is passed to the receiver; packet started is set by the first octet other than FFh
(R97); an idle cycle raises idle run, and the fourth ends the window EMPTY (R99). -/
def State.windowOctet (s : State) (w : Window) (slot : Nat) (o : Octet) : State :=
  let w' : Window :=
    { w with
      packetStarted := w.packetStarted || decide (o ≠ idleOctet)
      idleRun := if w.idleCycle slot o then w.idleRun + 1 else w.idleRun }
  let s₁ := { s with window := { s.window with window := some w' } }
  let s₂ := s₁.receive w' o
  if w.idleCycle slot o ∧ Config.emptyLimit ≤ w'.idleRun then s₂.endWindow .empty else s₂

end Sys2Proof.Machine
end

