-- ==== Sys2Proof/Machine/Transmit.lean ====
section
/-! DEFINITION. The transmit unit's work (chapter 7): packet octets, lane engines, finishing packets. -/

namespace Sys2Proof.Machine

/-- The packet's octets on the line number L + 6 (R119). -/
def Packet.lineLength (p : Packet) : Nat := p.declared + 6

/-- The header octets, positions 0 to 3 (R119). -/
def Packet.header (p : Packet) : List Octet := [p.port] ++ o8 p.destination ++ o16 p.declared

/-- Body octets of the host's data that have gone out while SENDING (R137): positions 4 to L + 3 before the present one. -/
def Packet.bodyOut (p : Packet) : Nat := min (p.position - 4) p.declared

/-- Body octets sent, for PACKET_DONE (R137): those out so far while SENDING, those noted when it stopped once ABORTING. -/
def Packet.sentAtFinish (p : Packet) : Nat :=
  match p.state with
  | .sending => p.bodyOut
  | .aborting => p.bodySent
  | .filling | .ready => 0

/-- A SENDING packet becomes ABORTING with the reason given (R129, R131). -/
def Packet.abort (p : Packet) (reason : PacketReason) : Packet :=
  { p with state := .aborting, abortReason := some reason, bodySent := p.bodyOut }

/-- The PACKET_DONE fields of a packet of lane `l` (R137). -/
def Packet.done (p : Packet) (l : Nat) (outcome : PacketOutcome) (reason : Option PacketReason) (now : BitVec 16) :
    PacketDone where
  handle := p.handle
  lane := l
  destination := p.destination
  port := p.port
  declared := p.declared
  outcome := outcome
  reason := reason
  bodySent := match outcome with
    | .sent => p.declared
    | .cancelled => 0
    | .aborted => p.sentAtFinish
  received := p.body.length
  cycle := now

/-- A packet finishes (R136): its record leaves the queue, its blocks return, its completion is placed. The engine is set
by the finishing rule. -/
def State.finishPacket (s : State) (l : Nat) (p : Packet) (outcome : PacketOutcome) (reason : Option PacketReason) :
    State :=
  let s₁ := s.modLane l fun x => { x with queue := x.queue.filter fun q => q.handle != p.handle }
  { s₁ with free := s₁.free + blocksFor p.declared }.complete (.packet (p.done l outcome reason s.now))

/-- The engine after a packet's end: active set empty, gap count 0 (R127, R130, R133, R134, R135). -/
def Lane.rest (l : Lane) (e : EngineState) : Lane := { l with engine := e, activeSet := [], gapCount := 0 }

/-- The engine is SENDING or ABORTING. -/
def Lane.busy (l : Lane) : Bool :=
  match l.engine with
  | .sending | .aborting => true
  | .idle | .gap => false

/-- The packet is SENDING or ABORTING. -/
def Packet.started (p : Packet) : Bool :=
  match p.state with
  | .sending | .aborting => true
  | .filling | .ready => false

/-- The lane engine is told of the loss of a down slot (R134): a packet in progress on that slot finishes ABORTED,
SLOTS_LOST, at once, and the engine becomes GAP. -/
def State.laneSlotLost (s : State) (l slot : Nat) : State :=
  let x := s.lane l
  match x.queue with
  | p :: _ =>
    if x.busy = true ∧ slot ∈ x.activeSet then
      (s.finishPacket l p .aborted (some .slotsLost)).modLane l fun y => y.rest .gap
    else s
  | [] => s

/-- The transmit unit's line-down effects on one lane (R135). -/
def State.stopLane (s : State) (l : Nat) : State :=
  let s₁ :=
    match (s.lane l).queue with
    | p :: _ => if p.started then s.finishPacket l p .aborted (some .lineStopped) else s
    | [] => s
  s₁.modLane l fun y => { y.rest .idle with runningCheck := crcPreset }

/-- The lanes in ascending order (R135). -/
def State.stopLanes (s : State) : State := (List.range Config.lanes).foldl State.stopLane s

/-- A packet that may start (R125): READY, or FILLING under cut-through with at least one body octet. -/
def Packet.eligible (p : Packet) (cutThrough : Bool) : Bool :=
  match p.state with
  | .ready => true
  | .filling => cutThrough && decide (0 < p.body.length)
  | .sending | .aborting => false

/-- An IDLE engine starts an eligible head on the lane's held down set (R125). -/
def Lane.tryStart (l : Lane) (held : List Nat) : Lane :=
  match l.queue with
  | p :: rest =>
    if l.engine = .idle ∧ held ≠ [] ∧ p.eligible l.cutThrough = true then
      { l with
        engine := .sending, activeSet := held, runningCheck := crcPreset
        queue := { p with state := .sending, position := 0 } :: rest }
    else l
  | [] => l

/-- An engine in GAP with gap count 2 (R128). -/
def Lane.gapOver (l : Lane) : Bool := decide (l.engine = .gap ∧ 2 ≤ l.gapCount)

/-- A lane engine at a RUNNING cycle start (R125, R128): GAP may end, then the head may start. -/
def Lane.atCycleStart (l : Lane) (held : List Nat) : Lane :=
  (if l.gapOver then l.rest .idle else l).tryStart held

/-- Every lane engine at a RUNNING cycle start. -/
def State.startLanes (s : State) : State :=
  { s with lanes := s.lanes.mapIdx fun i l => l.atCycleStart (s.held (.lane i) .down) }

/-- Replace the head packet. -/
def Lane.withHead (l : Lane) (p : Packet) : Lane := { l with queue := p :: l.queue.tail }

/-- What a turn gives: the octet that goes out, and the state after it. -/
abbrev Turn := Octet × State

/-- The octet at the head's position goes out and its position rises (R126, R130); the octets before the check are entered
into the running check. -/
def State.sendOctet (s : State) (l : Nat) (p : Packet) (o : Octet) (checked : Bool) : Turn :=
  (o,
    s.modLane l fun x =>
      { x.withHead { p with position := p.position + 1 } with
        runningCheck := if checked then crcOctet x.runningCheck o else x.runningCheck })

/-- The last octet of a packet has gone out: it finishes, and the engine becomes GAP (R127, R130). -/
def State.endPacket (s : State) (l : Nat) (p : Packet) (o : Octet) (outcome : PacketOutcome)
    (reason : Option PacketReason) : Turn :=
  (o,
    (s.finishPacket l { p with position := p.position + 1 } outcome reason).modLane l fun y => y.rest .gap)

/-- The turn of an active slot while ABORTING (R130): header octets as usual, FFh for the body, and the complement of the
running check. -/
def State.abortTurn (s : State) (l : Nat) (p : Packet) : Turn :=
  let x := s.lane l
  if p.position < 4 then s.sendOctet l p ((p.header[p.position]?).getD idleOctet) true
  else if p.position < p.declared + 4 then s.sendOctet l p idleOctet true
  else if p.position = p.declared + 4 then s.sendOctet l p (~~~hi8 x.runningCheck) false
  else s.endPacket l p (~~~lo8 x.runningCheck) .aborted p.abortReason

/-- The turn of an active slot while SENDING (R126): header, body and check octets; a body octet not yet received is an
underrun, and the slot carries the first fill octet (R129). -/
def State.sendTurn (s : State) (l : Nat) (p : Packet) : Turn :=
  let x := s.lane l
  if p.position < 4 then s.sendOctet l p ((p.header[p.position]?).getD idleOctet) true
  else if p.position < p.declared + 4 then
    match p.body[p.position - 4]? with
    | some o => s.sendOctet l p o true
    | none =>
      let p' := p.abort .underrun
      (s.modLane l fun y => { y.withHead p' with engine := .aborting }).abortTurn l p'
  else if p.position = p.declared + 4 then s.sendOctet l p (hi8 x.runningCheck) false
  else s.endPacket l p (lo8 x.runningCheck) .sent none

/-- The turn of a down slot routed to the lane (R124, R126, R128): what the engine gives, and FFh when it gives nothing. -/
def State.laneTurn (s : State) (l slot : Nat) : Turn :=
  let x := s.lane l
  match x.engine, x.queue with
  | .sending, p :: _ => if slot ∈ x.activeSet then s.sendTurn l p else (idleOctet, s)
  | .aborting, p :: _ => if slot ∈ x.activeSet then s.abortTurn l p else (idleOctet, s)
  | .gap, _ => (idleOctet, s.modLane l fun y => { y with gapCount := min 2 (y.gapCount + 1) })
  | .idle, _ | .sending, [] | .aborting, [] => (idleOctet, s)

end Sys2Proof.Machine
end

