-- ==== Sys2Proof/Machine/SlotMap.lean ====
section
/-! DEFINITION. The Slot Map unit and the circuit unit (chapter 4): claims, displacement, the Reclaim List, circuits. -/

namespace Sys2Proof.Machine

/-- A slot of a claim. -/
abbrev SlotRef := Dir × Nat

/-- A claim's slots in the order of R67: down before up, each ascending. -/
def claimSlots (down up : List Nat) : List SlotRef :=
  (ascending down).map (fun x => (Dir.down, x)) ++ (ascending up).map (fun x => (Dir.up, x))

/-- The owner that refuses a slot of a claim (R67): another owner with equal or higher precedence. -/
def State.refuses (s : State) (o : Owner) (prec : Nat) (r : SlotRef) : Option MapEntry :=
  match s.mapEntry r.1 r.2 with
  | some e => if e.owner ≠ o ∧ prec ≤ e.prec then some e else none
  | none => none

/-- The first refusing slot of a claim, with its owner (R67). -/
def State.firstRefusal (s : State) (o : Owner) (prec : Nat) : List SlotRef → Option (SlotRef × MapEntry)
  | [] => none
  | r :: rest =>
    match s.refuses o prec r with
    | some e => some (r, e)
    | none => s.firstRefusal o prec rest

/-- The station's state is ONLINE. -/
def State.isOnline (s : State) (a : Nat) : Bool := decide ((s.station a).state = .online)

/-! ## Circuits -/

/-- An empty store of a circuit's width (R79). -/
def Circuit.noOctets (c : Circuit) : List (Option Octet) := List.replicate c.up.length none

/-- Both stores emptied, and nothing collected until the next cycle start (R81). -/
def Circuit.silence (c : Circuit) : Circuit :=
  { c with incoming := c.noOctets, outgoing := c.noOctets, collects := false }

/-- The circuit owns every slot of both lists (R82). -/
def State.whole (s : State) (n : Nat) (c : Circuit) : Bool :=
  c.down.all (fun x => decide (x ∈ s.held (.circuit n) .down))
    && c.up.all fun x => decide (x ∈ s.held (.circuit n) .up)

/-- A circuit changes state: its stores are empty (it leaves LIVE, or enters it with nothing collected, R81), and CIRCUIT_STATE
is queued (R87). -/
def State.changeCircuit (s : State) (n : Nat) (c : Circuit) (new : CircuitState) (reason : CircuitReason)
    (lost : Option SlotRef) : State :=
  (s.setCircuit n (some { c.silence with state := new })).report
    (.circuitState n c.source new c.state reason lost s.now)

/-- A circuit is told of a loss (R82): LIVE or MUTED becomes DISPLACED. -/
def State.circuitSlotLost (s : State) (n : Nat) (c : Circuit) (r : SlotRef) : State :=
  if c.state = .displaced then s else s.changeCircuit n c .displaced .slotLost (some r)

/-- A circuit is told of a regain (R82): whole again, it is LIVE when its source is ONLINE, else MUTED. -/
def State.circuitSlotRegained (s : State) (n : Nat) : State :=
  match s.circuit n with
  | some c =>
    if c.state = .displaced ∧ s.whole n c = true then
      s.changeCircuit n c (if s.isOnline c.source then .live else .muted) .slotsRegained none
    else s
  | none => s

/-- The circuits that satisfy `p` change state, in ascending circuit number (R83). -/
def State.changeCircuits (s : State) (p : Circuit → Bool) (new : CircuitState) (reason : CircuitReason) : State :=
  (List.range Config.circuits).foldl
    (fun s n =>
      match s.circuit n with
      | some c => if p c then s.changeCircuit n c new reason none else s
      | none => s)
    s

/-- A station has become ONLINE (R33, R83). -/
def State.sourceOnline (s : State) (a : Nat) : State :=
  s.changeCircuits (fun c => decide (c.source = a ∧ c.state = .muted)) .live .sourceOnline

/-- A station has left ONLINE (R34, R83). -/
def State.sourceLeft (s : State) (a : Nat) : State :=
  s.changeCircuits (fun c => decide (c.source = a ∧ c.state = .live)) .muted .sourceLeft

/-- The first RUNNING cycle start: every LIVE circuit whose source is not ONLINE becomes MUTED (R83). -/
def State.muteSourceless (s : State) : State :=
  s.changeCircuits (fun c => decide (c.state = .live) && !s.isOnline c.source) .muted .sourceLeft

/-- A circuit at a RUNNING cycle start (R81): a LIVE one sends what it collected and collects again. -/
def Circuit.shift (c : Circuit) : Circuit :=
  if c.state = .live then { c with outgoing := c.incoming, incoming := c.noOctets, collects := true } else c.silence

/-- Every circuit at a RUNNING cycle start. -/
def State.shiftCircuits (s : State) : State := { s with circuits := s.circuits.map (Option.map Circuit.shift) }

/-- The line-down effects on the circuits: the stores are emptied (R79, R81). -/
def State.silenceCircuits (s : State) : State := { s with circuits := s.circuits.map (Option.map Circuit.silence) }

/-- An octet arrives in a circuit's up slot (R81): a circuit that collects stores it at its position. -/
def Circuit.collect (c : Circuit) (slot : Nat) (o : Octet) : Circuit :=
  if c.collects then { c with incoming := c.incoming.set (c.up.idxOf slot) (some o) } else c

/-- The octet for a circuit's down slot (R81): that of the outgoing store, FFh for an empty place. -/
def Circuit.downOctet (c : Circuit) (slot : Nat) : Octet := ((c.outgoing[c.down.idxOf slot]?).join).getD idleOctet

/-! ## Freeing slots (R72) -/

/-- The entry that wins a freed slot: the highest precedence, and among equals the one nearest the front. -/
def bestEntry : List ReclaimEntry → Option ReclaimEntry
  | [] => none
  | e :: rest =>
    match bestEntry rest with
    | some b => if e.prec < b.prec then some b else some e
    | none => some e

/-- The winner is told that it has regained the slot: a lane by SLOT_EVENT (R78, R86), a circuit by R82. -/
def State.tellRegained (s : State) (e : ReclaimEntry) (lettingGo : Owner) : State :=
  match e.owner with
  | .lane l => s.report (.slotEvent l e.dir e.slot .regained lettingGo none none s.now)
  | .circuit n => s.circuitSlotRegained n

/-- A slot becomes free: it goes to the best entry of the Reclaim List for it, or to no owner (R72). -/
def State.freeSlot (s : State) (lettingGo : Owner) (r : SlotRef) : State :=
  match bestEntry (s.slots.reclaim.filter fun e => decide (e.dir = r.1 ∧ e.slot = r.2)) with
  | none => s.setEntry r.1 r.2 none
  | some e =>
    let s₁ := s.setEntry r.1 r.2 (some { owner := e.owner, prec := e.prec })
    let s₂ := { s₁ with slots := { s₁.slots with reclaim := s₁.slots.reclaim.erase e } }
    s₂.tellRegained e lettingGo

/-- Slots that the owner holds are freed one by one, each searched before the next (R72, R76, R84, R85). -/
def State.freeSlots (s : State) (o : Owner) (rs : List SlotRef) : State :=
  rs.foldl (fun s r => if (s.mapEntry r.1 r.2).any fun e => decide (e.owner = o) then s.freeSlot o r else s) s

/-- Remove the Reclaim List entries that satisfy `p` (R70). -/
def State.dropReclaim (s : State) (p : ReclaimEntry → Bool) : State :=
  { s with slots := { s.slots with reclaim := s.slots.reclaim.filter fun e => !p e } }

/-- The rest of a circuit's end (R84, R85): its slots are freed and searched, and its number becomes free. -/
def State.removeCircuit (s : State) (n : Nat) (c : Circuit) : State :=
  (s.freeSlots (.circuit n) (claimSlots c.down c.up)).setCircuit n none

/-- CIRCUIT.CLOSE (R84). -/
def State.closeCircuit (s : State) (n : Nat) (c : Circuit) : State :=
  (s.dropReclaim fun e => decide (e.owner = .circuit n)).removeCircuit n c

/-- A circuit that loses a slot while the Reclaim List is full is closed (R85). -/
def State.closeNoReclaim (s : State) (n : Nat) (c : Circuit) (r : SlotRef) : State :=
  let s₁ := s.dropReclaim fun e => decide (e.owner = .circuit n)
  (s₁.report (.circuitState n c.source .closed c.state .noReclaim (some r) s.now)).removeCircuit n c

/-! ## Claims (R67, R68) -/

/-- A displaced slot: where it is, and the owner and precedence it had. -/
structure Loss where
  slot : SlotRef
  entry : MapEntry
  deriving DecidableEq, Repr

/-- The losses that a claim by `o` causes, in the order of R68. -/
def State.losses (s : State) (o : Owner) (rs : List SlotRef) : List Loss :=
  rs.filterMap fun r =>
    match s.mapEntry r.1 r.2 with
    | some e => if e.owner = o then none else some { slot := r, entry := e }
    | none => none

/-- The lane's users are told of the loss (R77): the lane engine for a down slot, the window unit for an up slot (R103). -/
def State.tellLane (s : State) (l : Nat) (r : SlotRef) : State :=
  match r.1 with
  | .down => s.laneSlotLost l r.2
  | .up =>
    match s.window.window with
    | some w => if w.lane = l ∧ r.2 ∈ w.upSet then s.endWindow (.slotsLost r.2) else s
    | none => s

/-- The Reclaim List has room (R71). -/
def State.reclaimRoom (s : State) : Bool := decide (s.slots.reclaim.length < Config.reclaimList)

/-- The loser's entry joins the end of the Reclaim List (R68, R71). -/
def State.addReclaim (s : State) (x : Loss) : State :=
  { s with
    slots :=
      { s.slots with
        reclaim :=
          s.slots.reclaim
            ++ [{ owner := x.entry.owner, dir := x.slot.1, slot := x.slot.2, prec := x.entry.prec }] } }

/-- One loss is acted on (R68 step 2, R71, R77, R82, R85): `o` and `prec` are the claimant's. A circuit that R85 closed
earlier in the step is passed over. -/
def State.takeLoss (o : Owner) (prec : Nat) (s : State) (x : Loss) : State :=
  let room := s.reclaimRoom
  match x.entry.owner with
  | .lane l =>
    let s₁ := if room then s.addReclaim x else s
    (s₁.report (.slotEvent l x.slot.1 x.slot.2 .lost o (some prec) (some room) s.now)).tellLane l x.slot
  | .circuit n =>
    match s.circuit n with
    | none => s
    | some c => if room then (s.addReclaim x).circuitSlotLost n c x.slot else s.closeNoReclaim n c x.slot

/-- A claim that passes R67 is applied (R68): the claimant owns every slot at once, then the losses are taken in order. -/
def State.applyClaim (s : State) (o : Owner) (prec : Nat) (rs : List SlotRef) : State :=
  let s₁ := rs.foldl (fun s r => s.setEntry r.1 r.2 (some { owner := o, prec := prec })) s
  (s.losses o rs).foldl (State.takeLoss o prec) s₁

/-! ## Lanes' slots (R73, R75, R76) -/

/-- The slots for which an owner has Reclaim List entries in a direction (R73). -/
def State.waited (s : State) (o : Owner) (d : Dir) : List Nat :=
  (s.slots.reclaim.filter fun e => decide (e.owner = o ∧ e.dir = d)).map (·.slot)

/-- The claimed set (R73): held together with waited. -/
def State.claimed (s : State) (o : Owner) (d : Dir) : List Nat := s.held o d ++ s.waited o d

/-- Two lists with the same members (R74). -/
def sameSet (a b : List Nat) : Bool := a.all (fun x => decide (x ∈ b)) && b.all fun x => decide (x ∈ a)

/-- A map entry, with the precedence given when it is the owner's. -/
def MapEntry.atPrec (o : Owner) (prec : Nat) (e : MapEntry) : MapEntry :=
  if e.owner = o then { e with prec := prec } else e

/-- A Reclaim List entry, with the precedence given when it is the owner's. -/
def ReclaimEntry.atPrec (o : Owner) (prec : Nat) (e : ReclaimEntry) : ReclaimEntry :=
  if e.owner = o then { e with prec := prec } else e

/-- Every map entry and every Reclaim List entry of the lane take its precedence, as does its record (R76 step 1). -/
def State.setPrecedence (s : State) (l prec : Nat) (cutThrough : Bool) : State :=
  let s₁ :=
    { s with
      slots :=
        { down := s.slots.down.map (Option.map (MapEntry.atPrec (.lane l) prec))
          up := s.slots.up.map (Option.map (MapEntry.atPrec (.lane l) prec))
          reclaim := s.slots.reclaim.map (ReclaimEntry.atPrec (.lane l) prec) } }
  s₁.modLane l fun x => { x with prec := prec, cutThrough := cutThrough }

/-- The slots of a LANE.SET that are new (R75): neither held nor waited. -/
def State.newSlots (s : State) (l : Nat) (down up : List Nat) : List SlotRef :=
  claimSlots (down.filter fun x => decide (x ∉ s.claimed (.lane l) .down))
    (up.filter fun x => decide (x ∉ s.claimed (.lane l) .up))

/-- The held slots of a lane that a LANE.SET drops (R75). -/
def State.droppedSlots (s : State) (l : Nat) (down up : List Nat) : List SlotRef :=
  claimSlots ((s.held (.lane l) .down).filter fun x => decide (x ∉ down))
    ((s.held (.lane l) .up).filter fun x => decide (x ∉ up))

/-- A LANE.SET that passes R74 is applied, steps 1 to 4 of R76. -/
def State.applyLaneSet (s : State) (l prec : Nat) (cutThrough : Bool) (down up : List Nat) : State :=
  let fresh := s.newSlots l down up
  let dropped := s.droppedSlots l down up
  let s₁ := s.setPrecedence l prec cutThrough
  let s₂ :=
    s₁.dropReclaim fun e =>
      decide (e.owner = .lane l ∧ e.slot ∉ (match e.dir with | .down => down | .up => up))
  (s₂.applyClaim (.lane l) prec fresh).freeSlots (.lane l) dropped

end Sys2Proof.Machine
end

