-- ==== Sys2Proof/Machine/Poll.lean ====
section
/-! DEFINITION. The poll unit's work (chapter 2), quiet supervision (R16, R17) and the requests for windows (R92, R94). -/

namespace Sys2Proof.Machine

/-! ## The Poll Ring and call selection (R23, R24) -/

/-- Ring members are OFFLINE, JOINING, ONLINE or SILENT (R23). -/
def StationState.inRing : StationState → Bool
  | .offline | .joining | .online | .silent => true
  | .free | .barred => false

/-- The addresses whose stations satisfy `p`, ascending. -/
def State.addresses (s : State) (p : Station → Bool) : List Nat :=
  (List.range' 1 Config.stations).filter fun a => p (s.station a)

/-- The lowest address of an ascending list above the pointer, else the lowest (R23). -/
def nextAfter (pointer : Nat) (l : List Nat) : Option Nat :=
  match l.find? fun a => decide (pointer < a) with
  | some a => some a
  | none => l.head?

/-- The next ring member after the poll pointer (R23). -/
def State.nextRing (s : State) : Option Nat := nextAfter s.poll.pollPointer (s.addresses fun t => t.state.inRing)

/-- The next FREE address after the probe pointer (R23). -/
def State.nextFree (s : State) : Option Nat :=
  nextAfter s.poll.probePointer (s.addresses fun t => decide (t.state = .free))

/-- The cycle is a probe cycle (R24). -/
def State.probeCycle (s : State) : Bool :=
  decide (s.line.settings.probeInterval ≠ 0 ∧ s.now.toNat % s.line.settings.probeInterval = 0)

/-- The call of a RUNNING cycle, with the pointer it moves and the call record (R24). -/
def State.chooseCall (s : State) : State :=
  let ring :=
    match s.nextRing with
    | some a => { s with poll := { s.poll with pollPointer := a, call := .ring a } }
    | none => { s with poll := { s.poll with call := .none } }
  if s.probeCycle then
    match s.nextFree with
    | some a => { s with poll := { s.poll with probePointer := a, call := .probe a } }
    | none => ring
  else ring

/-- The contents of slots 0 and 1 for a call (R25, R52). -/
def State.callContents (s : State) : Octet × Octet :=
  match s.poll.call with
  | .none => (callOctet 0 .none false, idleOctet)
  | .probe a => (callOctet a .none false, idleOctet)
  | .ring a =>
    if s.isOnline a then
      let c := s.noteCall a
      (callOctet a c.mark c.toggle, c.octet)
    else (callOctet a .none (s.station a).noteToggle, idleOctet)

/-- The note unit's part of the call: an octet is called to an ONLINE station only; in any other cycle the call-out record
names no call (R52). -/
def State.makeCall (s : State) : State :=
  let none' := { s with notes := { s.notes with callOut := none } }
  match s.poll.call with
  | .ring a => if s.isOnline a then s.callNote a else none'
  | .none | .probe _ => none'

/-! ## Leaving and entering ONLINE (R33, R34) -/

/-- STATION_STATE (R36). -/
def State.reportStation (s : State) (a : Nat) (new left : StationState) (reason : StationReason) : State :=
  s.report (.stationState a new left reason s.now)

/-- The window unit's part of a departure (R34, R95, R102): out of the Window Queue, and an owner's window ends LOST. -/
def State.leaveWindow (s : State) (a : Nat) : State :=
  let s₁ := { s with window := { s.window with queue := s.window.queue.filter fun x => x != a } }
  match s₁.window.window with
  | some w => if w.owner = a then s₁.endWindow .lost else s₁
  | none => s₁

/-- The effects of leaving ONLINE for `new` (R34): the report, the window unit, the note unit, the circuit unit. -/
def State.leaveOnline (s : State) (a : Nat) (new : StationState) (reason : StationReason) : State :=
  (((s.reportStation a new .online reason).leaveWindow a).loseNotes a).sourceLeft a

/-- The condition double-look (R38). -/
def State.doubleLook (s : State) (a code : Nat) : State :=
  let t := s.station a
  if t.candidate = some code then
    if t.accepted = some code then s
    else
      (s.modStation a fun t => { t with accepted := some code }).report (.condition a code t.accepted 0 s.now)
  else s.modStation a fun t => { t with candidate := some code }

/-- A request for a window: the address joins the Window Queue when the station is ONLINE, not queued and not the owner
(R92, R94). -/
def State.askWindow (s : State) (a : Nat) : State :=
  let owner := s.window.window.any fun w => decide (w.owner = a)
  if s.isOnline a = true ∧ a ∉ s.window.queue ∧ owner = false then
    { s with window := { s.window with queue := s.window.queue ++ [a] } }
  else s

/-! ## Judging an answer (R26 to R32, R40) -/

/-- A miss or a malformed answer of a ring poll raises misses total, and a malformed one malformed answers too (R47). -/
def Station.countMiss (t : Station) (malformed : Bool) : Station :=
  { t with
    missesTotal := sat16 t.missesTotal
    malformedAnswers := if malformed then sat16 t.malformedAnswers else t.malformedAnswers }

/-- A valid answer of an OFFLINE or SILENT station: JOINING, with candidate and note toggle taken (R28, R32). -/
def State.joinStation (s : State) (a code : Nat) (echo : Bool) : State :=
  s.modStation a fun t => { t with state := .joining, candidate := some code, noteToggle := echo }

/-- A valid answer of a JOINING station (R29, R33). -/
def State.becomeOnline (s : State) (a code : Nat) (request : Bool) : State :=
  let s₁ := s.modStation a fun t => { t with state := .online, missCount := 0 }
  let s₂ := ((s₁.reportStation a .online .joining .answered).sourceOnline a).doubleLook a code
  if request then s₂.askWindow a else s₂

/-- A valid answer of an ONLINE station (R30). -/
def State.answerOnline (s : State) (a code : Nat) (echo request busy : Bool) : State :=
  let s₁ := s.modStation a fun t => { t with missCount := 0 }
  let s₂ := (s₁.doubleLook a code).judgeNote a echo busy
  if request then s₂.askWindow a else s₂

/-- An ONLINE station's miss count after one more miss (R31: it stops at 15). -/
def Station.raisedMiss (t : Station) : Nat := satAdd 15 t.missCount 1

/-- A miss or malformed answer of an ONLINE station (R31); at the miss limit it becomes SILENT. -/
def State.missOnline (s : State) (a : Nat) (malformed : Bool) : State :=
  let t := s.station a
  let s₁ := s.modStation a fun t => { t.countMiss malformed with missCount := t.raisedMiss, candidate := none }
  if s.line.settings.missLimit ≤ t.raisedMiss then
    (s₁.modStation a fun t => { t with state := .silent }).leaveOnline a .silent .missLimit
  else s₁

/-- A miss or malformed answer of a ring poll, by the station's state (R28, R29, R31, R32). -/
def State.ringMiss (s : State) (a : Nat) (malformed : Bool) : State :=
  match (s.station a).state with
  | .online => s.missOnline a malformed
  | .joining => s.modStation a fun t => { t.countMiss malformed with state := .offline, candidate := none }
  | .offline | .silent => s.modStation a fun t => t.countMiss malformed
  | .free | .barred => s

/-- A valid answer of a ring poll, by the station's state (R28 to R30, R32). -/
def State.ringValid (s : State) (a code : Nat) (echo request busy : Bool) : State :=
  match (s.station a).state with
  | .offline | .silent => s.joinStation a code echo
  | .joining => s.becomeOnline a code request
  | .online => s.answerOnline a code echo request busy
  | .free | .barred => s

/-- A valid answer ends a quiet run (R16). -/
def State.endQuiet (s : State) : State := { s with line := { s.line with quietCount := 0, quietReported := false } }

/-- A ring-poll miss raises the quiet count, and LINE_QUIET is queued at the limit (R16, R17). -/
def State.countQuiet (s : State) : State :=
  let n := satAdd 255 s.line.quietCount 1
  let s₁ := { s with line := { s.line with quietCount := n } }
  if s.line.settings.quietLimit ≤ n ∧ s.line.quietReported = false then
    { s₁ with line := { s₁.line with quietReported := true } }.report (.lineQuiet n s.line.settings.quietLimit)
  else s₁

/-- The answer to a ring poll (R26, R27): stale for a FREE or BARRED station; the outcome goes to the line engine. -/
def State.ringAnswer (s : State) (a : Nat) (x : Answer) : State :=
  if (s.station a).state.inRing then
    match x with
    | .miss => (s.ringMiss a false).countQuiet
    | .malformed => (s.ringMiss a true).countQuiet
    | .valid code echo request busy => (s.ringValid a code echo request busy).endQuiet
  else s

/-- The answer to a probe (R40, R27): stale when the address is no longer FREE. -/
def State.probeAnswer (s : State) (a : Nat) (x : Answer) : State :=
  if (s.station a).state = .free then
    match x with
    | .miss | .malformed => s.modStation a fun t => { t with heard := false }
    | .valid code _ _ _ =>
      (if (s.station a).heard then s
        else (s.modStation a fun t => { t with heard := true }).report (.stationHeard a code)).endQuiet
  else s

/-- An answer is judged against the call record (R26). -/
def State.judgeAnswer (s : State) (o : Octet) : State :=
  match s.poll.call with
  | .none => s
  | .ring a => s.ringAnswer a (classifyAnswer o)
  | .probe a => s.probeAnswer a (classifyAnswer o)

end Sys2Proof.Machine
end

