-- ==== Sys2Proof/Machine/Cycle.lean ====
section
/-! DEFINITION. The line engine's work: line-down effects (R13), cycle starts (R4, R8, R11, R96, R98), cycle ends (R12). -/

namespace Sys2Proof.Machine

/-! ## The down pair -/

/-- A pair that carries nothing in any slot (R2). -/
def idlePair : List Octet := List.replicate Config.slots idleOctet

/-- The octets of a cycle at its start: call in slot 0, note octet in slot 1, grant in slot 4, FFh elsewhere (R2, R3). -/
def headerOf (call note grant : Octet) : List Octet :=
  (((idlePair.set 0 call).set 1 note).set 4 grant)

/-- The header of a STARTING cycle: address 0, mark NONE, toggle 0, FFh, no grant (R8, R188). -/
def startingHeader : List Octet := headerOf (callOctet 0 .none false) idleOctet (grantOctet none)

/-- An octet goes out in a down slot. -/
def State.drive (s : State) (slot : Nat) (o : Octet) : State :=
  { s with line := { s.line with driven := s.line.driven.set slot o } }

/-- No cycle runs: the cycle in progress is cut off, the down pair is released, and no sample stands (R1, R9, R12, R21). -/
def LineEngine.release (e : LineEngine) : LineEngine :=
  { e with
    cycleOpen := false, driven := idlePair
    sampleDown := List.replicate Config.payloadSlots none, sampleUp := List.replicate Config.payloadSlots none }

/-- LINE_STATE for a change from the present state (R18). -/
def State.reportLine (s : State) (new : LineState) (reason : LineReason) : State :=
  s.report (.lineState new s.line.state reason s.now)

/-! ## The line-down effects (R13) -/

/-- One station under the line-down effects (R35). -/
def State.stationDown (s : State) (a : Nat) : State :=
  let t := s.station a
  if t.state.inRing then
    let s₁ := s.modStation a fun t => { t with state := .offline, missCount := 0, candidate := none }
    if t.state = .online then s₁.reportStation a .offline .online .lineDown else s₁
  else s

/-- The poll unit's part, in ascending address order (R35). -/
def State.stationsDown (s : State) : State := (List.range' 1 Config.stations).foldl State.stationDown s

/-- The window unit's part (R104). -/
def State.windowDown (s : State) : State :=
  let s₁ := s.endWindow .lineDown
  { s₁ with window := { s₁.window with queue := [] } }

/-- The line-down effects, in the order of the table of R13 (log entry 14). -/
def State.lineDown (s : State) : State := s.stationsDown.stopNotes.windowDown.stopLanes.silenceCircuits

/-! ## Cycle starts -/

/-- A cycle can start: the line is STARTING or RUNNING, no cycle is in progress, and the part is not held in reset
(R1, R172; log entry 3). -/
def State.canStart (s : State) : Bool :=
  decide (s.pin = .high ∧ s.line.cycleOpen = false ∧ (s.line.state = .starting ∨ s.line.state = .running))

/-- The cycle start that follows the sixteenth completed STARTING cycle (R8). -/
def State.reachesRunning (s : State) : Bool :=
  decide (s.line.state = .starting ∧ Config.startingCycles ≤ s.line.startCount)

/-- The cycle counter advances (R11). -/
def State.advance (s : State) : State :=
  { s with line := { s.line with cycleCounter := s.line.cycleCounter + 1, cycleOpen := true } }

/-- STARTING becomes RUNNING (R8), and LIVE circuits without an ONLINE source become MUTED (R83). -/
def State.becomeRunning (s : State) : State :=
  let s₁ := s.reportLine .running .runningReached
  { s₁ with line := { s₁.line with state := .running } }.muteSourceless

/-- The window limit at a RUNNING cycle start (R98). -/
def State.windowTick (s : State) : State :=
  match s.window.window with
  | some w =>
    if s.line.settings.windowLimit ≤ w.cyclesUsed then s.endWindow .overrun
    else { s with window := { s.window with window := some { w with cyclesUsed := w.cyclesUsed + 1 } } }
  | none => s

/-- The grant (R96): the first queued station whose lane holds an up slot. -/
def State.grant (s : State) : State :=
  match s.window.window with
  | some _ => s
  | none =>
    match s.window.queue.find? fun a => !(s.held (.lane (s.station a).lane) .up).isEmpty with
    | none => s
    | some a =>
      let l := (s.station a).lane
      let w : Window :=
        { owner := a, lane := l, upSet := s.held (.lane l) .up, cyclesUsed := 1, packetStarted := false, idleRun := 0 }
      let s₁ := { s with window := { s.window with window := some w, queue := s.window.queue.erase a } }
      s₁.modStation a fun t => { t with windowsGranted := sat16 t.windowsGranted }

/-- The owners of one direction, as the line engine samples them (R4). -/
def owners (l : List (Option MapEntry)) : List (Option Owner) := l.map (Option.map (·.owner))

/-- The line engine's own part of a RUNNING cycle start: the cycle total (R11), the sample (R4), the header octets of the
call and the grant (R3). -/
def State.openCycle (s : State) (contents : Octet × Octet) : State :=
  { s with
    line :=
      { s.line with
        cycleTotal := s.line.cycleTotal + 1
        sampleDown := owners s.slots.down, sampleUp := owners s.slots.up
        driven := headerOf contents.1 contents.2 (grantOctet (s.window.window.map (·.owner))) } }

/-- The work of every block at a RUNNING cycle start: the window limit (R98), the call (R24, R25, R52), the grant (R96), the
circuits (R81), the lane engines (R125, R128), the sample and the header octets (R4, R3). -/
def State.runningStart (s : State) : State :=
  let s₁ := s.windowTick.chooseCall
  (s₁.makeCall.grant.shiftCircuits.startLanes).openCycle s₁.callContents

/-- A STARTING cycle starts: no call, no sample, FFh in every payload slot (R3, R4, R8). The poll unit makes no choice, and its
call record keeps what the last RUNNING cycle left: the MODEL's choice, log entry 27. -/
def State.startingStart (s : State) : State :=
  { s with line := { s.line with driven := startingHeader } }

/-- A cycle starts (R1, R8, R11). -/
def State.startCycle (s : State) : State :=
  if s.reachesRunning then s.advance.becomeRunning.runningStart
  else if s.line.state = .running then s.advance.runningStart
  else s.advance.startingStart

/-! ## Cycle ends (R12) -/

/-- The verdict: the marker was found and every octet read back agrees with what was driven (R12). -/
def State.matches (s : State) (marker : Bool) (readback : List (Nat × Octet)) : Bool :=
  marker && readback.all fun p => decide (s.line.driven[p.1]? = some p.2)

/-- A cycle is in progress on a line that runs cycles. -/
def State.inCycle (s : State) : Bool :=
  decide (s.pin = .high ∧ s.line.cycleOpen = true ∧ (s.line.state = .starting ∨ s.line.state = .running))

/-- The bit that the down pair carries in bit time `bit` of slot `slot`: that of the octet driven there, most significant bit
first; a one while no cycle runs (R1, R2). -/
def State.downBit (s : State) (slot bit : Nat) : Bool :=
  if s.inCycle then (s.line.driven[slot]?.bind fun o => (slotBits o)[bit]?).getD undrivenBit else undrivenBit

/-- Whether the cycle marker goes out in that bit time: with "the first bit of slot 0" of every cycle, and with no other (R1). -/
def State.downMarker (s : State) (slot bit : Nat) : Bool := s.inCycle && decide (slot = 0 ∧ bit = 0)

/-- A RUNNING cycle is in progress: the only one in which up octets are routed (R3, R4). -/
def State.inRunningCycle (s : State) : Bool :=
  decide (s.pin = .high ∧ s.line.cycleOpen = true ∧ s.line.state = .running)

/-- The line goes FAULTED (R12), and from RUNNING the line-down effects follow (R13). -/
def State.faultLine (s : State) : State :=
  let s₁ := s.reportLine .faulted .readback
  let s₂ := { s₁ with line := { s₁.line.release with state := .faulted, faultReason := some .readback } }
  if s.line.state = .running then s₂.lineDown else s₂

/-- A completed STARTING cycle raises the start count (R8). -/
def LineEngine.countStart (e : LineEngine) : LineEngine :=
  if e.state = .starting then { e with startCount := e.startCount + 1 } else e

/-- The cycle's verdict is formed (R12). -/
def State.endCycle (s : State) (good : Bool) : State :=
  if good then { s with line := { s.line with mismatchCount := 0, cycleOpen := false }.countStart }
  else
    let s₁ := { s with line := { s.line with mismatchCount := s.line.mismatchCount + 1, cycleOpen := false } }
    if Config.readbackLimit ≤ s₁.line.mismatchCount then s₁.faultLine
    else { s₁ with line := s₁.line.countStart }

end Sys2Proof.Machine
end

