-- ==== Sys2Proof/Machine/CycleEvents.lean ====
section
/-! DEFINITION. Cycle starts and cycle ends (chapter 1), and the rows that name a special case of one: RUNNING_REACHED,
WINDOW_OVERRUN, GAP_END, READBACK_FAULT. A row of a special case is the whole event in that case (log entry 7). -/

namespace Sys2Proof.Machine

/-- A cycle starts (R1, R4, R8, R11). -/
def execCycleStart (s : State) : Host.Outcome State Fault Refusal :=
  if s.canStart then event s.startCycle else .next s

/-- The cycle start after the sixteenth completed STARTING cycle (R8). -/
def execRunningReached (s : State) : Host.Outcome State Fault Refusal :=
  if s.canStart && s.reachesRunning then event s.advance.becomeRunning.runningStart else .next s

/-- A cycle can start on a RUNNING line. -/
def State.canStartRunning (s : State) : Bool := s.canStart && decide (s.line.state = .running)

/-- The open window has used as many cycles as the limit allows (R98). -/
def State.windowOver (s : State) : Bool :=
  s.window.window.any fun w => decide (s.line.settings.windowLimit ≤ w.cyclesUsed)

/-- The cycle start at which the open window ends OVERRUN (R98). -/
def execWindowOverrun (s : State) : Host.Outcome State Fault Refusal :=
  if s.canStartRunning && s.windowOver then event s.advance.runningStart else .next s

/-- The cycle start at which the lane's engine leaves GAP (R128). -/
def execGapEnd (lane : Nat) (s : State) : Host.Outcome State Fault Refusal :=
  if s.canStartRunning && decide (lane < Config.lanes) && (s.lane lane).gapOver then event s.advance.runningStart
  else .next s

/-- Slot 47 has been read back and the verdict is formed (R12, R8). -/
def execCycleEnd (marker : Bool) (readback : List (Nat × Octet)) (s : State) : Host.Outcome State Fault Refusal :=
  if s.inCycle then event (s.endCycle (s.matches marker readback)) else .next s

/-- The verdict that brings the mismatch count to 8 faults the line (R12). -/
def execReadbackFault (marker : Bool) (readback : List (Nat × Octet)) (s : State) : Host.Outcome State Fault Refusal :=
  if s.inCycle && !s.matches marker readback && decide (Config.readbackLimit ≤ s.line.mismatchCount + 1) then
    event
      { s with line := { s.line with mismatchCount := s.line.mismatchCount + 1, cycleOpen := false } }.faultLine
  else .next s

end Sys2Proof.Machine
end

