-- ==== Sys2Proof/Machine/LineRequests.lean ====
section
/-! DEFINITION. The line requests: LINE.START, LINE.STOP, LINE.SET, STATS (chapter 1; layouts 11.4 and 11.5). -/

namespace Sys2Proof.Machine

/-! ## LINE.START (R7) -/

/-- The line goes STARTING: counts cleared, cycle counter 0, LINE_STATE queued, and cycle 0 starts at once (R7). -/
def State.startLine (s : State) : State :=
  { s with
    line :=
      { s.line with
        state := .starting, startCount := 0, mismatchCount := 0, quietCount := 0, quietReported := false
        faultReason := none, cycleCounter := 0, cycleOpen := true, driven := startingHeader } }.report
    (.lineState .starting s.line.state .request 0)

/-- LINE.START is taken in STOPPED and FAULTED, refused in STARTING and RUNNING (R7). -/
def lineStart (body : List Octet) (s : State) : Answered :=
  if body ≠ [] then answer s .badArg
  else
    match s.line.state with
    | .stopped | .faulted => answer s.startLine .ok
    | .starting | .running => answer s .badState

def execLineStart (tag : Octet) (body : List Octet) (s : State) : Host.Outcome State Fault Refusal :=
  serve { kind := 0x01#8, tag := tag, body := body } (lineStart body) s

/-! ## LINE.STOP (R9) -/

/-- The line goes STOPPED: LINE_STATE queued, a cycle in progress cut off, and from RUNNING the line-down effects (R9, R13). -/
def State.stopLine (s : State) : State :=
  let s₁ := s.reportLine .stopped .request
  let s₂ := { s₁ with line := { s₁.line.release with state := .stopped, faultReason := none } }
  if s.line.state = .running then s₂.lineDown else s₂

/-- LINE.STOP is taken in every line state; in STOPPED nothing changes (R9). -/
def lineStop (body : List Octet) (s : State) : Answered :=
  if body ≠ [] then answer s .badArg
  else if s.line.state = .stopped then answer s .ok
  else answer s.stopLine .ok

def execLineStop (tag : Octet) (body : List Octet) (s : State) : Host.Outcome State Fault Refusal :=
  serve { kind := 0x02#8, tag := tag, body := body } (lineStop body) s

/-! ## LINE.SET (R14, R116) -/

/-- The ranges of the five settings (1.9). -/
def missLimitOk (n : Nat) : Bool := decide (1 ≤ n ∧ n ≤ 15)
def windowLimitOk (n : Nat) : Bool := decide (8 ≤ n ∧ n ≤ 255)
def probeIntervalOk (n : Nat) : Bool := decide (n = 0 ∨ (4 ≤ n ∧ n ≤ 255))
def quietLimitOk (n : Nat) : Bool := decide (8 ≤ n ∧ n ≤ 255)
def receiveReserveOk (n : Nat) : Bool := decide (n ≤ 128)

/-- The values of a LINE.SET: each is given or absent, by the mask (11.4). -/
structure GivenSettings where
  missLimit : Option Nat
  windowLimit : Option Nat
  probeInterval : Option Nat
  quietLimit : Option Nat
  receiveReserve : Option Nat
  deriving DecidableEq, Repr

/-- Every value given is in its range (R14). -/
def GivenSettings.inRange (g : GivenSettings) : Bool :=
  g.missLimit.all missLimitOk && g.windowLimit.all windowLimitOk && g.probeInterval.all probeIntervalOk
    && g.quietLimit.all quietLimitOk && g.receiveReserve.all receiveReserveOk

/-- The settings after a LINE.SET: an absent one keeps its value (R14). -/
def GivenSettings.over (g : GivenSettings) (old : LineSettings) : LineSettings where
  missLimit := g.missLimit.getD old.missLimit
  windowLimit := g.windowLimit.getD old.windowLimit
  probeInterval := g.probeInterval.getD old.probeInterval
  quietLimit := g.quietLimit.getD old.quietLimit
  receiveReserve := g.receiveReserve.getD old.receiveReserve

/-- The fields of a LINE.SET body: bits 0 to 4 of the mask say which value is given; bits 5 to 7 are clear (R189). -/
def parseLineSet : List Octet → Option GivenSettings
  | [mask, miss, win, probe, quiet, reserve] =>
    let given (i : Nat) (v : Octet) : Option Nat := if mask.getLsbD i then some v.toNat else none
    if mask.toNat < 32 then
      some
        { missLimit := given 0 miss, windowLimit := given 1 win, probeInterval := given 2 probe
          quietLimit := given 3 quiet, receiveReserve := given 4 reserve }
    else none
  | _ => none

/-- The five settings as a reply carries them (11.5). -/
def oSettings (x : LineSettings) : List Octet :=
  o8 x.missLimit ++ o8 x.windowLimit ++ o8 x.probeInterval ++ o8 x.quietLimit ++ o8 x.receiveReserve

/-- The reserve would leave transmit queues holding more than 256 minus it (R14, R116). -/
def State.reserveInUse (s : State) (g : GivenSettings) : Bool :=
  g.receiveReserve.any fun r => decide (Config.poolBlocks - r < s.txHeld)

/-- LINE.SET (R14). -/
def lineSet (body : List Octet) (s : State) : Answered :=
  match parseLineSet body with
  | none => answer s .badArg
  | some g =>
    if g.inRange = false then answer s .badArg
    else if s.reserveInUse g then answer s .inUse (o16 s.txHeld)
    else
      answer { s with line := { s.line with settings := g.over s.line.settings } } .ok
        (oSettings (g.over s.line.settings))

def execLineSet (tag : Octet) (body : List Octet) (s : State) : Host.Outcome State Fault Refusal :=
  serve { kind := 0x03#8, tag := tag, body := body } (lineSet body) s

/-! ## STATS (R20, R106, R117, R156, R173) -/

/-- The line group (R20). -/
def State.statsLine (s : State) : List Octet :=
  let e := s.line
  o8 e.state.code ++ o8? (e.faultReason.map (·.code)) ++ o8 e.startCount ++ o16 e.cycleCounter.toNat
    ++ o32 e.cycleTotal.toNat ++ o8 e.mismatchCount ++ o8 e.quietCount ++ oFlag e.quietReported ++ oSettings e.settings

/-- The pool group (R117). -/
def State.statsPool (s : State) : List Octet :=
  o16 s.free ++ o16 s.txHeld ++ s.lanes.flatMap (fun l => o16 l.held) ++ o16 s.mailHeld
    ++ s.mailboxes.flatMap (fun m => o8 m.held) ++ o8 s.rx.held

/-- The window group (R106). In NONE the owner and the lane are absent and the rest is 0 or empty (R90). -/
def State.statsWindow (s : State) : List Octet :=
  let record :=
    match s.window.window with
    | none => o8 0 ++ o8? none ++ o8? none ++ oSlots [] ++ o8 0 ++ oFlag false ++ o8 0
    | some w =>
      o8 1 ++ o8 w.owner ++ o8 w.lane ++ oSlots w.upSet ++ o8 w.cyclesUsed ++ oFlag w.packetStarted ++ o8 w.idleRun
  o16 s.window.bidCollisions ++ o16 s.window.ignoredBids ++ record ++ oList o8 s.window.queue

/-- The receiver group (R156). In IDLE the fields of the packet in progress are absent (log entry 20). A field of the record that the
packet has not given yet is absent too, the station field in HEADER while only the port octet has been taken among them: the
MODEL's choice, log entry 28. -/
def State.statsReceiver (s : State) : List Octet :=
  let r := s.rx.record
  let taken := if s.rx.state = .idle then none else some r.taken
  o16 s.rx.stored ++ o16 s.rx.badCheck ++ o16 s.rx.foreign ++ o16 s.rx.long ++ o16 s.rx.unclaimed ++ o16 s.rx.cutShort
    ++ o8 s.rx.state.code ++ o8? (r.port.map (·.toNat)) ++ o8? (r.station.map (·.toNat)) ++ o16? r.length ++ o16? taken
    ++ o8? r.mailbox ++ o8? (r.matchKind.map (·.code))
    ++ s.mailboxes.flatMap fun m => o8 m.records.length ++ o16 m.dropped

/-- The link group (R173); the STATS frame itself has left the intake. -/
def State.statsLink (s : State) : List Octet :=
  o8 s.link.rate ++ o16 s.link.faultCount ++ o8 s.link.intake.length ++ o8 s.link.replies.length

/-- STATS is taken in every line state and changes no state (R20). -/
def stats (body : List Octet) (s : State) : Answered :=
  if body ≠ [] then answer s .badArg
  else answer s .ok (s.statsLine ++ s.statsPool ++ s.statsWindow ++ s.statsReceiver ++ s.statsLink)

def execStats (tag : Octet) (body : List Octet) (s : State) : Host.Outcome State Fault Refusal :=
  serve { kind := 0x04#8, tag := tag, body := body } (stats body) s

end Sys2Proof.Machine
end

