-- ==== Sys2Proof/Machine/Link.lean ====
section
/-! DEFINITION. The host link's work (chapter 9): the receive framer, link faults, resync, frame ends, and the resets. -/

namespace Sys2Proof.Machine

/-! ## Receive faults (R162) -/

/-- A LINK_FAULT with one fault of the cause, and the link fault count (R162). -/
def LinkFaultCause.counts (total : Nat) : LinkFaultCause → LinkFaultCounts
  | .check => { check := 1, length := 0, cutShort := 0, escape := 0, framing := 0, overrun := 0, total := total }
  | .length => { check := 0, length := 1, cutShort := 0, escape := 0, framing := 0, overrun := 0, total := total }
  | .cutShort => { check := 0, length := 0, cutShort := 1, escape := 0, framing := 0, overrun := 0, total := total }
  | .escape => { check := 0, length := 0, cutShort := 0, escape := 1, framing := 0, overrun := 0, total := total }
  | .framing => { check := 0, length := 0, cutShort := 0, escape := 0, framing := 1, overrun := 0, total := total }
  | .overrun => { check := 0, length := 0, cutShort := 0, escape := 0, framing := 0, overrun := 1, total := total }

/-- Replace the framer. -/
def State.withFramer (s : State) (f : Framer) : State := { s with link := { s.link with framer := f } }

/-- The framer at the start of a frame (R161). -/
def Framer.starting : Framer := { state := .length, escape := false, buffer := [] }

/-- A receive fault (R162): the frame is dropped, the link fault count rises, LINK_FAULT is handed over. The framer is in HUNT,
or in LENGTH when the fault is a cut short. -/
def State.linkFault (s : State) (cause : LinkFaultCause) : State :=
  let n := sat16 s.link.faultCount
  let s₁ := s.withFramer (if cause = .cutShort then .starting else .hunting)
  { s₁ with link := { s₁.link with faultCount := n } }.report (.linkFault (cause.counts n))

/-! ## The framer (R161) -/

/-- A whole frame, checked, is offered to the intake (R163). -/
def State.offerFrame (s : State) (f : Frame) : State :=
  if s.link.intake.length < Config.intake then
    let s₁ := s.withFramer .hunting
    { s₁ with link := { s₁.link with intake := s₁.link.intake ++ [f] } }
  else s.linkFault .overrun

/-- The length field of a frame in the assembly buffer. -/
def frameLength (buffer : List Octet) : Nat :=
  match buffer with
  | hi :: lo :: _ => nat16 hi lo
  | _ => 0

/-- The check computed over the length, kind, tag and body octets in the assembly buffer (R160). -/
def Framer.computedCheck (f : Framer) : BitVec 16 := crc (f.buffer.take (frameLength f.buffer + 2))

/-- The frame in an assembly buffer that holds a length, kind, tag and body. -/
def frameOf (buffer : List Octet) : Frame :=
  { kind := (buffer[2]?).getD 0, tag := (buffer[3]?).getD 0
    body := (buffer.drop 4).take (frameLength buffer - 2) }

/-- A data octet, escapes undone, in LENGTH, CONTENT or CHECK (R161). -/
def State.frameOctet (s : State) (o : Octet) : State :=
  let buffer := s.link.framer.buffer ++ [o]
  let f : Framer := { s.link.framer with escape := false, buffer := buffer }
  match f.state with
  | .hunt => s
  | .length =>
    if buffer.length < 2 then s.withFramer f
    else if frameLength buffer < 2 ∨ Config.largestFrameBody + 2 < frameLength buffer then s.linkFault .length
    else s.withFramer { f with state := .content }
  | .content =>
    if buffer.length < frameLength buffer + 2 then s.withFramer f else s.withFramer { f with state := .check }
  | .check =>
    if buffer.length < frameLength buffer + 4 then s.withFramer f
    else
      if buffer.drop (frameLength buffer + 2) = [hi8 f.computedCheck, lo8 f.computedCheck] then
        s.offerFrame (frameOf buffer)
      else s.linkFault .check

/-- A character whose stop bit is high (R161). -/
def State.framerOctet (s : State) (o : Octet) : State :=
  match s.link.framer.state with
  | .hunt => if o = startOctet then s.withFramer .starting else s
  | .length | .content | .check =>
    if o = startOctet then s.linkFault .cutShort
    else if s.link.framer.escape then
      if o = escapedForm startOctet ∨ o = escapedForm escapeOctet then s.frameOctet (escapedForm o)
      else s.linkFault .escape
    else if o = escapeOctet then s.withFramer { s.link.framer with escape := true }
    else s.frameOctet o

/-- A character whose stop bit is low and that is no break (R161, R162, R167): nothing in HUNT, else a FRAMING fault. -/
def State.framingError (s : State) : State :=
  match s.link.framer.state with
  | .hunt => s
  | .length | .content | .check => s.linkFault .framing

/-! ## Resets (R171, R172) -/

/-- Every block takes its reset values, and PART_READY is queued with the cause (R21, R48, R64, R89, R107, R118, R139, R157,
R174, R187). The commands waiting are the world's, and the model's counter of free choices goes on. -/
def State.resetBlocks (s : State) (cause : RestartCause) (rate : Nat) : State :=
  { State.fresh cause rate with choices := s.choices, pending := s.pending }

/-! ## The end of a frame (R166, R169, R171) -/

/-- The frame going out is the reply of the held request: no request is taken while one is held, so it is the last reply
waiting (R169, R171). -/
def State.heldReplyOut (s : State) : Option Hold :=
  if s.pin = .high ∧ s.link.tx = .reply ∧ s.link.replies.length = 1 then s.link.hold else none

/-- A reply leaves the reply queue when its last stop bit has gone out (R166). -/
def State.popReply (s : State) : State :=
  { s with link := { s.link with replies := s.link.replies.tail, tx := .idle } }

/-- The rate changes: the assembly buffer is dropped, the hold is released (R169). -/
def State.changeRate (s : State) (code : Nat) : State :=
  { s with link := { s.link with rate := code, framer := .hunting, hold := none } }

/-- The restart: every block at its reset values, the rate kept (R171, R174). -/
def State.restart (s : State) : State := s.resetBlocks .restart s.link.rate

/-- What the end of a held request's reply brings about (R169, R171). -/
def State.releaseHold (s : State) : Hold → State
  | .linkSet code => s.changeRate code
  | .restart => s.restart

/-- The last stop bit of a frame goes out (R166). -/
def State.frameEnd (s : State) : State :=
  match s.link.tx with
  | .idle => s
  | .report _ => s.startNext
  | .reply =>
    match s.heldReplyOut with
    | some h => (s.popReply.releaseHold h).startNext
    | none => s.popReply.startNext

/-! ## Link resync (R168, R186) -/

/-- The queue merged so that coalescing holds again (R186 step 4). -/
def mergeQueue (q : List Report) : List Report :=
  q.foldl (fun acc r => (coalesce acc r).getD (acc ++ [r])) []

/-- The report unit at a link resync (R186). -/
def ReportUnit.resync (now : BitVec 16) (u : ReportUnit) : ReportUnit :=
  ReportUnit.transfer now
    { u with
      resend := [], window := [], nextSeq := 0, queue := mergeQueue (u.window.map (·.report) ++ u.queue) }

/-- The host link at a link resync (R168): the frame being sent is cut off after the character in progress, whose place in the
frame is `place` modulo its length on the wire, and the receive line is low until BREAK_END. -/
def HostLink.resync (l : HostLink) (place : Nat) : HostLink :=
  { l with
    framer := .hunting, intake := [], hold := none, replies := [], tx := .idle, rxLow := true
    finishing := l.txFrame.bind fun f =>
      f.wire[place % f.wire.length]?.map fun o => (place % f.wire.length, o) }

end Sys2Proof.Machine
end

