-- ==== Sys2Proof/Machine/LinkEvents.lean ====
section
/-! DEFINITION. The resets (R171, R172) and the events of the host link (R161 to R169). -/

namespace Sys2Proof.Machine

/-! ## Resets -/

/-- Power-on completes (R172). A RESET pin held low through it stays low and owes cause POWER_ON (log entry 10). -/
def execPowerOn (s : State) : Host.Outcome State Fault Refusal :=
  match s.pin with
  | .high => event (s.resetBlocks .powerOn 0)
  | .low _ => event { s.resetBlocks .powerOn 0 with pin := .low .powerOn }

/-- The RESET pin goes low: the down pair is released, the transmit line is held high (R172, R21; log entry 10). -/
def execResetPinAssert (s : State) : Host.Outcome State Fault Refusal :=
  match s.pin with
  | .high =>
    event { s with pin := .low .pin, line := s.line.release, link := { s.link with tx := .idle, finishing := none } }
  | .low _ => .next s

/-- The RESET pin returns high (R172). -/
def execResetPinRelease (s : State) : Host.Outcome State Fault Refusal :=
  match s.pin with
  | .high => .next s
  | .low cause => event (s.resetBlocks cause 0)

/-- The DEVICE.RESTART reply has gone out: the restart, and PART_READY starts on the idle transmitter (R171). -/
def execRestartTakesEffect (s : State) : Host.Outcome State Fault Refusal :=
  match s.heldReplyOut with
  | some .restart => .next (s.popReply.restart).startNext
  | some (.linkSet _) | none => .next s

/-! ## The host link -/

/-- The LINK.SET reply has gone out: the rate changes (R169), and the next frame starts at the new rate (R166). -/
def execRateChange (s : State) : Host.Outcome State Fault Refusal :=
  match s.heldReplyOut with
  | some (.linkSet code) => .next (s.popReply.changeRate code).startNext
  | some .restart | none => .next s

/-- A break is recognised: link resync (R168, R186). One break gives one resync (R167). Which character of a frame being sent is in
progress is a free value, and an open choice is taken then (log entry 29). -/
def execLinkResync (s : State) : Host.Outcome State Fault Refusal :=
  if s.pin = .high ∧ s.link.rxLow = false then
    event
      { s with
        link := s.link.resync (Config.cutPlace s.choices), rep := s.rep.resync s.now
        choices := if s.link.txFrame.isSome then s.choices + 1 else s.choices }
  else .next s

/-- The receive line returns high after a break: frames start again (R168 step 6), and a character of a frame that was cut off has
gone out (log entry 29). -/
def execBreakEnd (s : State) : Host.Outcome State Fault Refusal :=
  if s.pin = .high ∧ s.link.rxLow = true then event { s with link := { s.link with rxLow := false, finishing := none } }
  else .next s

/-- A character arrives (R161); with a low stop bit it is a framing error (R162, R167). While the line stays low no
characters are received (R167), and while the RESET pin is low the line is ignored (R172). -/
def execRxCharacter (octet : Octet) (stopHigh : Bool) (s : State) : Host.Outcome State Fault Refusal :=
  if s.pin = .high ∧ s.link.rxLow = false then
    event (if stopHigh then s.framerOctet octet else s.framingError)
  else .next s

/-- The last stop bit of a frame goes out (R166, R169, R171). -/
def execTxFrameEnd (s : State) : Host.Outcome State Fault Refusal :=
  if s.pin = .high then .next s.frameEnd else .next s

end Sys2Proof.Machine
end

