-- ==== Sys2Proof/Machine/LinkRequests.lean ====
section
/-! DEFINITION. LINK.SET, LINK.HELLO, DEVICE.RESTART, and frames that are no request (chapter 9). -/

namespace Sys2Proof.Machine

/-! ## LINK.SET (R169) -/

def linkSet (body : List Octet) (s : State) : Answered :=
  match body with
  | [code] =>
    if 4 ≤ code.toNat then answer s .badArg
    else if code.toNat = s.link.rate then answer s .ok (o8 s.link.rate)
    else answer { s with link := { s.link with hold := some (.linkSet code.toNat) } } .ok (o8 code.toNat)
  | _ => answer s .badArg

def execLinkSet (tag : Octet) (body : List Octet) (s : State) : Host.Outcome State Fault Refusal :=
  serve { kind := 0x1B#8, tag := tag, body := body } (linkSet body) s

/-! ## LINK.HELLO (R170) -/

/-- The identity and the capacities (R170, 11.5). -/
def helloFields (rate : Nat) : List Octet :=
  o16 Config.partCode ++ o8 Config.revision ++ o8 rate ++ o8 Config.stations ++ o8 Config.slots
    ++ o8 Config.payloadSlots ++ o8 Config.lanes ++ o8 Config.queueDepth ++ o8 Config.circuits ++ o8 Config.circuitWidth
    ++ o8 Config.mailboxes ++ o8 Config.mailboxDepth ++ o16 Config.poolBlocks ++ o8 Config.blockSize
    ++ o16 Config.largestBody ++ o8 Config.noteStore ++ o8 Config.notesPerStation ++ o8 Config.longestNote
    ++ o8 Config.reclaimList ++ o8 Config.reportQueue ++ o8 Config.reportWindow ++ o8 Config.completionList
    ++ o8 Config.intake ++ o8 Config.replyQueue ++ o16 Config.largestFrameBody

def linkHello (body : List Octet) (s : State) : Answered :=
  if body ≠ [] then answer s .badArg else answer s .ok (helloFields s.link.rate)

def execLinkHello (tag : Octet) (body : List Octet) (s : State) : Host.Outcome State Fault Refusal :=
  serve { kind := 0x1C#8, tag := tag, body := body } (linkHello body) s

/-! ## DEVICE.RESTART (R171) -/

def deviceRestart (body : List Octet) (s : State) : Answered :=
  if body ≠ [] then answer s .badArg
  else answer { s with link := { s.link with hold := some .restart } } .ok

def execDeviceRestart (tag : Octet) (body : List Octet) (s : State) : Host.Outcome State Fault Refusal :=
  serve { kind := 0x1D#8, tag := tag, body := body } (deviceRestart body) s

/-! ## A kind that is not a request kind (R164 step 1) -/

/-- A frame whose kind is a request kind is not this command's (log entry 11). -/
def execUnknownRequest (kind tag : Octet) (body : List Octet) (s : State) : Host.Outcome State Fault Refusal :=
  if isRequestKind kind then .next s
  else serve { kind := kind, tag := tag, body := body } (fun s => answer s .unknownRequest) s

end Sys2Proof.Machine
end

