-- ==== Sys2Proof/Machine/MailboxRequests.lean ====
section
/-! DEFINITION. MAILBOX.SET, MAILBOX.TAKE and MAILBOX.FLUSH (chapter 8). -/

namespace Sys2Proof.Machine

/-! ## MAILBOX.SET (R152) -/

/-- The fields of a MAILBOX.SET, checked (R152, R189): the mailbox and its filter, or none when a field is out of range. -/
def parseMailboxSet : List Octet → Option (Nat × Filter)
  | [m, enabled, mode, portA, portB, general, restriction] =>
    match flag? enabled, MailboxMode.ofOctet mode, flag? general with
    | some enabled, some mode, some general =>
      if m.toNat < Config.mailboxes ∧ portA ≠ idleOctet ∧ portB ≠ idleOctet
          ∧ (restriction = 0xFF#8 ∨ isStation restriction.toNat = true) then
        some
          (m.toNat,
            { enabled := enabled, mode := mode, portA := portA, portB := portB, general := general
              restriction := if restriction = 0xFF#8 then none else some restriction.toNat })
      else none
    | _, _, _ => none
  | _ => none

/-- The six filter octets (11.5). -/
def Filter.fields (f : Filter) : List Octet :=
  oFlag f.enabled ++ o8 f.mode.code ++ [f.portA] ++ [f.portB] ++ oFlag f.general ++ o8? f.restriction

def mailboxSet (body : List Octet) (s : State) : Answered :=
  match parseMailboxSet body with
  | none => answer s .badArg
  | some (m, f) =>
    answer (s.modMailbox m fun b => { b with filter := f }) .ok
      (f.fields ++ o8 (s.mailbox m).records.length ++ o16 (s.mailbox m).dropped)

def execMailboxSet (tag : Octet) (body : List Octet) (s : State) : Host.Outcome State Fault Refusal :=
  serve { kind := 0x16#8, tag := tag, body := body } (mailboxSet body) s

/-! ## MAILBOX.TAKE (R153) -/

/-- A mailbox record as MAILBOX.TAKE carries it (11.7). -/
def MailRecord.fields (r : MailRecord) : List Octet :=
  o8 r.source ++ [r.port] ++ o8 r.matchKind.code ++ o16 r.length ++ o16 r.stamp.toNat ++ r.body

/-- The oldest record leaves the mailbox and its blocks become free (R153, R115). -/
def State.takeMail (s : State) (m : Nat) (r : MailRecord) : State :=
  { s with free := s.free + blocksFor r.length }.modMailbox m fun b => { b with records := b.records.tail }

def mailboxTake (body : List Octet) (s : State) : Answered :=
  match body with
  | [m] =>
    if Config.mailboxes ≤ m.toNat then answer s .badArg
    else
      match (s.mailbox m.toNat).records with
      | [] => answer s .ok (o8 0 ++ o16 (s.mailbox m.toNat).dropped ++ oFlag false)
      | r :: rest =>
        answer (s.takeMail m.toNat r) .ok
          (o8 rest.length ++ o16 (s.mailbox m.toNat).dropped ++ oFlag true ++ r.fields)
  | _ => answer s .badArg

def execMailboxTake (tag : Octet) (body : List Octet) (s : State) : Host.Outcome State Fault Refusal :=
  serve { kind := 0x17#8, tag := tag, body := body } (mailboxTake body) s

/-! ## MAILBOX.FLUSH (R154) -/

/-- Every record leaves the mailbox and their blocks become free (R154, R115). -/
def State.flushMail (s : State) (m : Nat) : State :=
  { s with free := s.free + (s.mailbox m).held }.modMailbox m fun b => { b with records := [] }

def mailboxFlush (body : List Octet) (s : State) : Answered :=
  match body with
  | [m] =>
    if Config.mailboxes ≤ m.toNat then answer s .badArg
    else answer (s.flushMail m.toNat) .ok (o8 (s.mailbox m.toNat).records.length)
  | _ => answer s .badArg

def execMailboxFlush (tag : Octet) (body : List Octet) (s : State) : Host.Outcome State Fault Refusal :=
  serve { kind := 0x18#8, tag := tag, body := body } (mailboxFlush body) s

end Sys2Proof.Machine
end

