-- ==== Sys2Proof/Machine/NoteRequests.lean ====
section
/-! DEFINITION. NOTE.SEND and NOTE.CANCEL (chapter 3). -/

namespace Sys2Proof.Machine

/-! ## NOTE.SEND (R50, R51) -/

/-- The limit that refuses a note for a station, checked in the order of R51; when the store is full and the station has four
notes as well, STORE is named (log entry 13). -/
def State.noteLimit (s : State) (a : Nat) : Option FullLimit :=
  if Config.noteStore ≤ s.notes.store.length then some .store
  else if Config.notesPerStation ≤ (s.notesOf a).length then some .station
  else if Config.completionList ≤ s.placesHeld then some .completions
  else none

/-- The handle of the next note (R50). -/
def State.nextNote (s : State) : Nat := nextHandle s.liveNotes s.notes.lastHandle

/-- The note is placed in the Note Store (R51). -/
def State.acceptNote (s : State) (a : Nat) (octets : List Octet) : State :=
  { s with
    notes :=
      { s.notes with
        store :=
          s.notes.store ++ [{ handle := s.nextNote, station := a, octets := octets, nextIndex := 0, state := .queued }]
        lastHandle := s.nextNote } }

def noteSend (body : List Octet) (s : State) : Answered :=
  match body with
  | a :: octets =>
    if isStation a.toNat = false ∨ octets = [] ∨ Config.longestNote < octets.length then answer s .badArg
    else if (s.station a.toNat).state = .free ∨ (s.station a.toNat).state = .barred then answer s .badState
    else
      match s.noteLimit a.toNat with
      | some limit => answer s .full [limit.code]
      | none => answer (s.acceptNote a.toNat octets) .ok (o16 s.nextNote)
  | [] => answer s .badArg

def execNoteSend (tag : Octet) (body : List Octet) (s : State) : Host.Outcome State Fault Refusal :=
  serve { kind := 0x0B#8, tag := tag, body := body } (noteSend body) s

/-! ## NOTE.CANCEL (R59) -/

/-- The completion of a finished note, while it waits on the Completion List. -/
def State.noteEntry (s : State) (h : Nat) : Option NoteDone :=
  s.rep.entries.findSome? fun
    | .note d => if d.handle = h then some d else none
    | .packet _ => none

def noteCancel (body : List Octet) (s : State) : Answered :=
  match body with
  | [hi, lo] =>
    match s.note? (nat16 hi lo) with
    | some n => answer (s.finishNote n .cancelled) .ok (o8 n.state.code ++ o8 n.nextIndex)
    | none =>
      match s.noteEntry (nat16 hi lo) with
      | some d => answer s .late (o8 d.outcome.code)
      | none => answer s .unknown
  | _ => answer s .badArg

def execNoteCancel (tag : Octet) (body : List Octet) (s : State) : Host.Outcome State Fault Refusal :=
  serve { kind := 0x0C#8, tag := tag, body := body } (noteCancel body) s

end Sys2Proof.Machine
end

