-- ==== Sys2Proof/Machine/PacketRequests.lean ====
section
/-! DEFINITION. PACKET.SEND, PACKET.ADD, PACKET.CANCEL, LANE.RESET and LANE.READ (chapter 7). -/

namespace Sys2Proof.Machine

/-! ## PACKET.SEND (R110, R121, R122) -/

/-- The fields of a PACKET.SEND body, unchecked. -/
structure PacketSendFields where
  lane : Nat
  destination : Nat
  port : Octet
  declared : Nat
  segment : List Octet
  deriving DecidableEq, Repr

/-- The layout and the size test of PACKET.SEND: 5 to 517 octets (11.4, R190). -/
def parsePacketSend : List Octet → Option PacketSendFields
  | lane :: destination :: port :: hi :: lo :: segment =>
    if segment.length ≤ Config.largestBody then
      some
        { lane := lane.toNat, destination := destination.toNat, port := port, declared := nat16 hi lo
          segment := segment }
    else none
  | _ => none

/-- The field checks of PACKET.SEND (R122 step 1). -/
def PacketSendFields.inRange (f : PacketSendFields) : Bool :=
  decide
    (f.lane < Config.lanes ∧ (1 ≤ f.destination ∧ f.destination ≤ 31) ∧ f.port ≠ idleOctet
      ∧ f.declared ≤ Config.largestBody ∧ f.segment.length ≤ f.declared)

/-- The limit that refuses a packet for a lane (R122 steps 2 and 3). -/
def State.packetLimit (s : State) (l : Nat) : Option FullLimit :=
  if Config.queueDepth ≤ (s.lane l).queue.length then some .queue
  else if Config.completionList ≤ s.placesHeld then some .completions
  else none

/-- The pool grants `n` blocks to a transmit packet: the reserve stays free (R110). -/
def State.grants (s : State) (n : Nat) : Bool := decide (n + s.line.settings.receiveReserve ≤ s.free)

/-- The handle of the next packet (R121). -/
def State.nextPacket (s : State) : Nat := nextHandle s.livePackets s.lastPacketHandle

/-- The record of a packet just accepted (R122). -/
def State.newPacket (s : State) (f : PacketSendFields) : Packet where
  handle := s.nextPacket
  destination := f.destination
  port := f.port
  declared := f.declared
  body := f.segment
  position := 0
  state := if f.segment.length = f.declared then .ready else .filling
  abortReason := none
  bodySent := 0

/-- The packet takes its blocks and joins its lane's queue (R122). -/
def State.acceptPacket (s : State) (f : PacketSendFields) : State :=
  { s with free := s.free - blocksFor f.declared, lastPacketHandle := s.nextPacket }.modLane f.lane fun l =>
    { l with queue := l.queue ++ [s.newPacket f] }

def packetSend (body : List Octet) (s : State) : Answered :=
  match parsePacketSend body with
  | none => answer s .badArg
  | some f =>
    if f.inRange = false then answer s .badArg
    else
      match s.packetLimit f.lane with
      | some limit => answer s .full [limit.code]
      | none =>
        if s.grants (blocksFor f.declared) then
          answer (s.acceptPacket f) .ok (o16 s.nextPacket ++ o8 (s.newPacket f).state.code)
        else answer s .noSpace (o8 (blocksFor f.declared) ++ o16 s.free ++ o8 s.line.settings.receiveReserve)

def execPacketSend (tag : Octet) (body : List Octet) (s : State) : Host.Outcome State Fault Refusal :=
  serve { kind := 0x11#8, tag := tag, body := body } (packetSend body) s

/-! ## The packet a handle names -/

/-- The queued packet with the handle, and its lane, searching from lane `n` on. -/
def findPacket (h : Nat) : Nat → List Lane → Option (Nat × Packet)
  | _, [] => none
  | n, l :: rest =>
    match l.queue.find? fun p => p.handle == h with
    | some p => some (n, p)
    | none => findPacket h (n + 1) rest

/-- The queued packet with the handle, and its lane. -/
def State.packet? (s : State) (h : Nat) : Option (Nat × Packet) := findPacket h 0 s.lanes

/-- The completion of a finished packet, while it waits on the Completion List. -/
def State.packetEntry (s : State) (h : Nat) : Option PacketDone :=
  s.rep.entries.findSome? fun
    | .packet d => if d.handle = h then some d else none
    | .note _ => none

/-- The fields of LATE for a finished packet (11.5). -/
def lateFinished (d : PacketDone) : List Octet := oFlag true ++ o8 d.outcome.code ++ o8? (d.reason.map (·.code))

/-- The fields of LATE for an ABORTING packet (11.5). -/
def lateAborting (p : Packet) : List Octet := oFlag false ++ o8? none ++ o8? (p.abortReason.map (·.code))

/-- The answer for a handle that no queued packet has: LATE while its completion waits, else UNKNOWN (R123, R131). -/
def State.answerFinished (s : State) (h : Nat) : Answered :=
  match s.packetEntry h with
  | some d => answer s .late (lateFinished d)
  | none => answer s .unknown

/-- Change the queued packet with the handle. -/
def State.modPacket (s : State) (l h : Nat) (f : Packet → Packet) : State :=
  s.modLane l fun x => { x with queue := x.queue.map fun p => if p.handle = h then f p else p }

/-! ## PACKET.ADD (R123) -/

/-- The packet with a segment appended; FILLING becomes READY when it is whole (R123). -/
def Packet.add (p : Packet) (segment : List Octet) : Packet :=
  { p with
    body := p.body ++ segment
    state := if p.state = .filling ∧ (p.body ++ segment).length = p.declared then .ready else p.state }

/-- PACKET.ADD for a queued packet (R123 steps 2 to 4). -/
def State.addTo (s : State) (l : Nat) (p : Packet) (segment : List Octet) : Answered :=
  if p.state = .aborting then answer s .late (lateAborting p)
  else if p.state = .ready ∨ (p.state = .sending ∧ p.body.length = p.declared) then answer s .badState
  else if segment = [] ∨ p.declared < p.body.length + segment.length then answer s .badArg
  else
    answer (s.modPacket l p.handle fun q => q.add segment) .ok
      (o16 (p.add segment).body.length ++ o8 (p.add segment).state.code)

def packetAdd (body : List Octet) (s : State) : Answered :=
  match body with
  | hi :: lo :: segment =>
    if Config.largestBody < segment.length then answer s .badArg
    else
      match s.packet? (nat16 hi lo) with
      | some (l, p) => s.addTo l p segment
      | none => s.answerFinished (nat16 hi lo)
  | _ => answer s .badArg

def execPacketAdd (tag : Octet) (body : List Octet) (s : State) : Host.Outcome State Fault Refusal :=
  serve { kind := 0x12#8, tag := tag, body := body } (packetAdd body) s

/-! ## PACKET.CANCEL (R131) -/

/-- A SENDING packet becomes ABORTING with reason CANCEL, and the engine with it (R131). -/
def State.cancelSending (s : State) (l : Nat) (p : Packet) : State :=
  (s.modPacket l p.handle fun q => q.abort .cancel).modLane l fun x => { x with engine := .aborting }

/-- PACKET.CANCEL for a queued packet (R131). -/
def State.cancelPacket (s : State) (l : Nat) (p : Packet) : Answered :=
  match p.state with
  | .filling | .ready =>
    answer (s.finishPacket l p .cancelled (some .cancel)) .ok (o8 p.state.code ++ o16 p.body.length)
  | .sending => answer (s.cancelSending l p) .ok (o8 p.state.code ++ o16 p.position)
  | .aborting => answer s .late (lateAborting p)

def packetCancel (body : List Octet) (s : State) : Answered :=
  match body with
  | [hi, lo] =>
    match s.packet? (nat16 hi lo) with
    | some (l, p) => s.cancelPacket l p
    | none => s.answerFinished (nat16 hi lo)
  | _ => answer s .badArg

def execPacketCancel (tag : Octet) (body : List Octet) (s : State) : Host.Outcome State Fault Refusal :=
  serve { kind := 0x13#8, tag := tag, body := body } (packetCancel body) s

/-! ## LANE.RESET (R133) -/

/-- One packet of a lane that is reset (R133). -/
def State.resetPacket (l : Nat) (s : State) (p : Packet) : State :=
  s.finishPacket l p (if p.started then .aborted else .cancelled) (some .laneReset)

/-- Every packet of the lane finishes, oldest first, and the engine becomes IDLE (R133). -/
def State.resetLane (s : State) (l : Nat) : State :=
  ((s.lane l).queue.foldl (State.resetPacket l) s).modLane l fun x => x.rest .idle

def laneReset (body : List Octet) (s : State) : Answered :=
  match body with
  | [l] =>
    if Config.lanes ≤ l.toNat then answer s .badArg
    else
      answer (s.resetLane l.toNat) .ok
        (o8 ((s.lane l.toNat).queue.countP Packet.started)
          ++ o8 ((s.lane l.toNat).queue.countP fun p => !p.started))
  | _ => answer s .badArg

def execLaneReset (tag : Octet) (body : List Octet) (s : State) : Host.Outcome State Fault Refusal :=
  serve { kind := 0x14#8, tag := tag, body := body } (laneReset body) s

/-! ## LANE.READ (R138) -/

/-- A transmit queue record as LANE.READ carries it (11.5). -/
def Packet.fields (p : Packet) : List Octet :=
  o16 p.handle ++ o8 p.destination ++ [p.port] ++ o16 p.declared ++ o16 p.body.length ++ o16 p.position
    ++ o8 p.state.code ++ o8? (p.abortReason.map (·.code))

/-- The fields of LANE.READ's reply (11.5). -/
def State.laneFields (s : State) (l : Nat) : List Octet :=
  let x := s.lane l
  o8 x.engine.code ++ oSlots x.activeSet ++ o8 x.gapCount ++ oFlag x.cutThrough ++ o8 x.prec
    ++ oSlots (s.held (.lane l) .down) ++ oSlots (s.held (.lane l) .up) ++ o16 x.held ++ oList Packet.fields x.queue

def laneRead (body : List Octet) (s : State) : Answered :=
  match body with
  | [l] => if Config.lanes ≤ l.toNat then answer s .badArg else answer s .ok (s.laneFields l.toNat)
  | _ => answer s .badArg

def execLaneRead (tag : Octet) (body : List Octet) (s : State) : Host.Outcome State Fault Refusal :=
  serve { kind := 0x15#8, tag := tag, body := body } (laneRead body) s

end Sys2Proof.Machine
end

