-- ==== Sys2Proof/Machine/ReportRequests.lean ====
section
/-! DEFINITION. REPORT.ACK and REPORT.RESEND (10.5). -/

namespace Sys2Proof.Machine

/-- The report status (R185, 11.5). -/
def State.reportStatus (s : State) : List Octet :=
  o8 s.rep.queue.length ++ o8 s.rep.window.length ++ o8? (s.rep.window.head?.map (·.seq.toNat)) ++ [s.rep.nextSeq]
    ++ o8 s.rep.resend.length ++ o8 s.placesHeld ++ o8 s.rep.entries.length ++ o16 s.rep.lostCount

/-! ## REPORT.ACK (R183) -/

/-- The report unit after the first `k` reports of the window are acknowledged: they leave the window and the resend list, and
the transfer runs (R183, R180). -/
def ReportUnit.acknowledge (now : BitVec 16) (k : Nat) (u : ReportUnit) : ReportUnit :=
  ReportUnit.transfer now
    { u with
      window := u.window.drop k
      resend := u.resend.filter fun r => (u.window.take k).all fun q => q.seq != r.seq }

def reportAck (body : List Octet) (s : State) : Answered :=
  match body with
  | [n] =>
    match s.rep.window.findIdx? fun r => r.seq == n with
    | none => answer s .badArg s.reportStatus
    | some i =>
      let s₁ := { s with rep := s.rep.acknowledge s.now (i + 1) }
      answer s₁ .ok (o8 (i + 1) ++ s₁.reportStatus)
  | _ => answer s .badArg

def execReportAck (tag : Octet) (body : List Octet) (s : State) : Host.Outcome State Fault Refusal :=
  serve { kind := 0x19#8, tag := tag, body := body } (reportAck body) s

/-! ## REPORT.RESEND (R184) -/

def reportResend (body : List Octet) (s : State) : Answered :=
  if body ≠ [] then answer s .badArg
  else
    let s₁ := { s with rep := { s.rep with resend := s.rep.window } }
    answer s₁ .ok (o8 s.rep.window.length ++ s₁.reportStatus)

def execReportResend (tag : Octet) (body : List Octet) (s : State) : Host.Outcome State Fault Refusal :=
  serve { kind := 0x1A#8, tag := tag, body := body } (reportResend body) s

end Sys2Proof.Machine
end

