-- ==== Sys2Proof/Machine/SlotEvents.lean ====
section
/-! DEFINITION. What arrives and goes out slot by slot in a RUNNING cycle, and the rows that name a special case of an
arrival: STATION_MISS_LIMIT, LINE_QUIET, BUSY_TIMEOUT, NO_ACK, WINDOW_EMPTY (log entry 7). -/

namespace Sys2Proof.Machine

/-! ## Answers (slot 2) -/

/-- The answer octet arrives (R26, R3). -/
def execAnswerArrival (octet : Octet) (s : State) : Host.Outcome State Fault Refusal :=
  if s.inRunningCycle then event (s.judgeAnswer octet) else .next s

/-- The station of the cycle's ring poll, when it is still called for: not FREE and not BARRED (R26, R27). -/
def State.ringCalled (s : State) : Option Nat :=
  match s.poll.call with
  | .ring a => if (s.station a).state.inRing then some a else none
  | .none | .probe _ => none

/-- Whether an octet is a miss (some false), a malformed answer (some true), or neither (none). -/
def missClass (octet : Octet) : Option Bool :=
  match classifyAnswer octet with
  | .miss => some false
  | .malformed => some true
  | .valid .. => none

/-- The answer with which an ONLINE station reaches the miss limit (R31). -/
def execStationMissLimit (octet : Octet) (s : State) : Host.Outcome State Fault Refusal :=
  match s.ringCalled, missClass octet with
  | some a, some malformed =>
    if s.inRunningCycle && s.isOnline a
        && decide (s.line.settings.missLimit ≤ (s.station a).raisedMiss) then
      event (s.missOnline a malformed).countQuiet
    else .next s
  | _, _ => .next s

/-- The quiet count after one more miss reaches the quiet limit with quiet reported clear (R17). -/
def State.quietReached (s : State) : Bool :=
  decide (s.line.settings.quietLimit ≤ satAdd 255 s.line.quietCount 1) && !s.line.quietReported

/-- The answer with which the quiet count reaches the quiet limit (R17). -/
def execLineQuiet (octet : Octet) (s : State) : Host.Outcome State Fault Refusal :=
  match s.ringCalled, missClass octet with
  | some a, some malformed =>
    if s.inRunningCycle && s.quietReached then event (s.ringMiss a malformed).countQuiet else .next s
  | _, _ => .next s

/-- The note octet called to station `a` in this cycle is still owed: its toggle (R53 to R55). -/
def State.octetOwed (s : State) (a : Nat) : Option Bool :=
  match s.notes.callOut, s.calledNote with
  | some c, some _ => if s.isOnline a && (c.mark == .more || c.mark == .endMark) then some c.toggle else none
  | _, _ => none

/-- The answer that is the 64th busy one (R54). -/
def execBusyTimeout (octet : Octet) (s : State) : Host.Outcome State Fault Refusal :=
  match s.ringCalled, classifyAnswer octet with
  | some a, .valid code echo request busy =>
    if s.inRunningCycle && (s.octetOwed a).isSome && busy
        && decide (Config.busyLimit ≤ (s.station a).busyRun + 1) then
      event (s.answerOnline a code echo request busy).endQuiet
    else .next s
  | _, _ => .next s

/-- The answer that is the 4th with the wrong echo (R55). -/
def execNoAck (octet : Octet) (s : State) : Host.Outcome State Fault Refusal :=
  match s.ringCalled, classifyAnswer octet with
  | some a, .valid code echo request busy =>
    if s.inRunningCycle && (s.octetOwed a == some (!echo)) && !busy
        && decide (Config.unackedLimit ≤ (s.station a).unackedPolls + 1) then
      event (s.answerOnline a code echo request busy).endQuiet
    else .next s
  | _, _ => .next s

/-! ## Bids (slot 3) -/

/-- A bid is acted on by its class (R91, R92). -/
def State.judgeBid (s : State) (b : Bid) : State :=
  match b with
  | .none => s
  | .collision => { s with window := { s.window with bidCollisions := sat16 s.window.bidCollisions } }
  | .station a =>
    if s.isOnline a then s.askWindow a
    else { s with window := { s.window with ignoredBids := sat16 s.window.ignoredBids } }

/-- The bid octet arrives (R91, R3). -/
def execBidArrival (octet : Octet) (s : State) : Host.Outcome State Fault Refusal :=
  if s.inRunningCycle then event (s.judgeBid (classifyBid octet)) else .next s

/-! ## Up octets of lanes -/

/-- The sampled owner of an up slot, in a RUNNING cycle (R4). -/
def State.upOwner (s : State) (slot : Nat) : Option Owner :=
  if s.inRunningCycle then atSlot s.line.sampleUp slot else none

/-- The sampled owner of a down slot, in a RUNNING cycle (R4). -/
def State.downOwner (s : State) (slot : Nat) : Option Owner :=
  if s.inRunningCycle then atSlot s.line.sampleDown slot else none

/-- The open window whose up set takes the octet of an up slot (R97). -/
def State.windowAt (s : State) (slot : Nat) : Option Window :=
  match s.upOwner slot, s.window.window with
  | some (.lane l), some w => if w.lane = l ∧ slot ∈ w.upSet then some w else none
  | _, _ => none

/-- An up octet in a lane's slot (R97): passed to the receiver when it falls in the open window's up set, else discarded. -/
def execWindowUpOctet (slot : Nat) (octet : Octet) (s : State) : Host.Outcome State Fault Refusal :=
  match s.windowAt slot with
  | some w => event (s.windowOctet w slot octet)
  | none => .next s

/-- The up octet that completes the fourth idle cycle of the window (R99). -/
def execWindowEmpty (slot : Nat) (octet : Octet) (s : State) : Host.Outcome State Fault Refusal :=
  match s.windowAt slot with
  | some w =>
    if w.idleCycle slot octet && decide (Config.emptyLimit ≤ w.idleRun + 1) then event (s.windowOctet w slot octet)
    else .next s
  | none => .next s

/-! ## Circuits (R81) -/

/-- An up octet in a circuit's slot. -/
def execCircuitUpOctet (slot : Nat) (octet : Octet) (s : State) : Host.Outcome State Fault Refusal :=
  match s.upOwner slot with
  | some (.circuit n) =>
    match s.circuit n with
    | some c => if slot ∈ c.up then event (s.setCircuit n (some (c.collect slot octet))) else .next s
    | none => .next s
  | some (.lane _) | none => .next s

/-- The turn of a circuit's down slot: the octet of the outgoing store, or FFh. -/
def execCircuitDownSlot (slot : Nat) (s : State) : Host.Outcome State Fault Refusal :=
  match s.downOwner slot with
  | some (.circuit n) =>
    event (s.drive slot (match s.circuit n with | some c => c.downOctet slot | none => idleOctet))
  | some (.lane _) | none => .next s

/-! ## Down octets of lanes (R126 to R130) -/

/-- The turn of a down slot routed to a lane. -/
def execLaneDownSlotTurn (slot : Nat) (s : State) : Host.Outcome State Fault Refusal :=
  match s.downOwner slot with
  | some (.lane l) => event ((s.laneTurn l slot).2.drive slot (s.laneTurn l slot).1)
  | some (.circuit _) | none => .next s

end Sys2Proof.Machine
end

