-- ==== Sys2Proof/Machine/SlotRequests.lean ====
section
/-! DEFINITION. LANE.SET, CIRCUIT.OPEN, CIRCUIT.CLOSE and SLOT.MAP (chapter 4). -/

namespace Sys2Proof.Machine

/-- The fields of a REFUSED reply: the slot, its owner and the owner's precedence (R67, 11.5). -/
def refusedFields (x : SlotRef × MapEntry) : List Octet :=
  o8 x.1.1.code ++ o8 x.1.2 ++ o8 (ownerCode (some x.2.owner)) ++ o8 x.2.prec

/-! ## LANE.SET (R74 to R76) -/

/-- The field checks of LANE.SET (R74 step 1, R189). -/
def LaneSetFields.inRange (f : LaneSetFields) : Bool :=
  decide (f.lane < Config.lanes) && slotListOk f.down && slotListOk f.up && isPrec f.prec && (flag? f.cutThrough).isSome

/-- A LANE.SET that would disturb work in progress (R74 step 2). -/
def State.laneSetBusy (s : State) (f : LaneSetFields) : Bool :=
  ((s.lane f.lane).busy && !sameSet f.down (s.claimed (.lane f.lane) .down))
    || ((s.window.window.any fun w => decide (w.lane = f.lane)) && !sameSet f.up (s.claimed (.lane f.lane) .up))

/-- The fields of LANE.SET's OK reply: held down, held up, and the waited slots in Reclaim List order (log entry 12). -/
def State.laneSetReply (s : State) (l : Nat) : List Octet :=
  oSlots (s.held (.lane l) .down) ++ oSlots (s.held (.lane l) .up)
    ++ oList (fun e : ReclaimEntry => o8 e.dir.code ++ o8 e.slot)
      (s.slots.reclaim.filter fun e => decide (e.owner = .lane l))

def laneSet (body : List Octet) (s : State) : Answered :=
  match parseLaneSet body with
  | none => answer s .badArg
  | some f =>
    if f.inRange = false then answer s .badArg
    else if s.laneSetBusy f then answer s .busy
    else
      match s.firstRefusal (.lane f.lane) f.prec (s.newSlots f.lane f.down f.up) with
      | some x => answer s .refused (refusedFields x)
      | none =>
        let s₁ := s.applyLaneSet f.lane f.prec ((flag? f.cutThrough).getD false) f.down f.up
        answer s₁ .ok (s₁.laneSetReply f.lane)

def execLaneSet (tag : Octet) (body : List Octet) (s : State) : Host.Outcome State Fault Refusal :=
  serve { kind := 0x0D#8, tag := tag, body := body } (laneSet body) s

/-! ## CIRCUIT.OPEN (R80) -/

/-- The field checks of CIRCUIT.OPEN (R80 step 1). -/
def CircuitOpenFields.inRange (f : CircuitOpenFields) : Bool :=
  isStation f.source && slotListOk f.up && slotListOk f.down && isPrec f.prec

/-- The lowest free circuit number (R80). -/
def State.freeCircuit (s : State) : Option Nat :=
  (List.range Config.circuits).find? fun n => (s.circuit n).isNone

/-- The record of a circuit that opens (R79, R80). -/
def State.newCircuit (s : State) (f : CircuitOpenFields) : Circuit where
  source := f.source
  up := f.up
  down := f.down
  prec := f.prec
  state := if s.isOnline f.source then .live else .muted
  incoming := List.replicate f.up.length none
  outgoing := List.replicate f.up.length none
  collects := false

/-- The circuit opens as number `n` and its claim is applied (R80, R68). -/
def State.openCircuit (s : State) (n : Nat) (f : CircuitOpenFields) : State :=
  (s.setCircuit n (some (s.newCircuit f))).applyClaim (.circuit n) f.prec (claimSlots f.down f.up)

def circuitOpen (body : List Octet) (s : State) : Answered :=
  match parseCircuitOpen body with
  | none => answer s .badArg
  | some f =>
    if f.inRange = false then answer s .badArg
    else
      match s.freeCircuit with
      | none => answer s .noSpace
      | some n =>
        if (s.station f.source).state = .free then answer s .badState
        else
          match s.firstRefusal (.circuit n) f.prec (claimSlots f.down f.up) with
          | some x => answer s .refused (refusedFields x)
          | none => answer (s.openCircuit n f) .ok (o8 n ++ o8 (s.newCircuit f).state.code)

def execCircuitOpen (tag : Octet) (body : List Octet) (s : State) : Host.Outcome State Fault Refusal :=
  serve { kind := 0x0E#8, tag := tag, body := body } (circuitOpen body) s

/-! ## CIRCUIT.CLOSE (R84) -/

def circuitClose (body : List Octet) (s : State) : Answered :=
  match body with
  | [n] =>
    if Config.circuits ≤ n.toNat then answer s .badArg
    else
      match s.circuit n.toNat with
      | none => answer s .unknown
      | some c => answer (s.closeCircuit n.toNat c) .ok
  | _ => answer s .badArg

def execCircuitClose (tag : Octet) (body : List Octet) (s : State) : Host.Outcome State Fault Refusal :=
  serve { kind := 0x0F#8, tag := tag, body := body } (circuitClose body) s

/-! ## SLOT.MAP (R88) -/

/-- A map entry as SLOT.MAP carries it (11.5). -/
def oMapEntry : Option MapEntry → List Octet
  | some e => o8 (ownerCode (some e.owner)) ++ o8 e.prec
  | none => o8 (ownerCode none) ++ o8? none

/-- A Reclaim List entry as SLOT.MAP carries it: bit 7 of the second octet is the direction (11.5). -/
def oReclaimEntry (e : ReclaimEntry) : List Octet :=
  o8 (ownerCode (some e.owner)) ++ o8 (128 * e.dir.code + e.slot) ++ o8 e.prec

/-- An open circuit as SLOT.MAP carries it (11.5). -/
def oCircuit (x : Nat × Circuit) : List Octet :=
  o8 x.1 ++ o8 x.2.source ++ o8 x.2.up.length ++ o8 x.2.prec ++ o8 x.2.state.code ++ x.2.up.flatMap o8
    ++ x.2.down.flatMap o8

/-- The open circuits with their numbers. R88 and 11.5 give no order for the circuit list: by ascending number is the model's
choice (log entry 26). -/
def State.openCircuits (s : State) : List (Nat × Circuit) :=
  (List.range Config.circuits).filterMap fun n => (s.circuit n).map fun c => (n, c)

def slotMap (body : List Octet) (s : State) : Answered :=
  if body ≠ [] then answer s .badArg
  else
    answer s .ok
      (s.slots.down.flatMap oMapEntry ++ s.slots.up.flatMap oMapEntry ++ oList oReclaimEntry s.slots.reclaim
        ++ s.lanes.flatMap (fun l => o8 l.prec ++ oFlag l.cutThrough) ++ oList oCircuit s.openCircuits)

def execSlotMap (tag : Octet) (body : List Octet) (s : State) : Host.Outcome State Fault Refusal :=
  serve { kind := 0x10#8, tag := tag, body := body } (slotMap body) s

end Sys2Proof.Machine
end

