-- ==== Sys2Proof/Machine/StationRequests.lean ====
section
/-! DEFINITION. The station requests (2.7). -/

namespace Sys2Proof.Machine

/-- A lane number from 0 to 3. -/
def isLane (l : Nat) : Bool := decide (l < Config.lanes)

/-! ## STATION.ENROL (R41) -/

/-- The entry of a station just enrolled on lane `l` (R41). -/
def Station.enrolled (l : Nat) : Station := { Station.fresh with state := .offline, lane := l }

def stationEnrol (body : List Octet) (s : State) : Answered :=
  match body with
  | [a, l] =>
    if (isStation a.toNat && isLane l.toNat) = false then answer s .badArg
    else if (s.station a.toNat).state = .free then
      answer (s.modStation a.toNat fun _ => .enrolled l.toNat) .ok
    else answer s .badState
  | _ => answer s .badArg

def execStationEnrol (tag : Octet) (body : List Octet) (s : State) : Host.Outcome State Fault Refusal :=
  serve { kind := 0x05#8, tag := tag, body := body } (stationEnrol body) s

/-! ## STATION.WITHDRAW (R42) -/

/-- The station is the source of an open circuit. -/
def State.isSource (s : State) (a : Nat) : Bool := s.circuits.any fun c => c.any fun c => decide (c.source = a)

/-- The effects on the other blocks of a station's leaving for `new` by a request: those of R34 when it was ONLINE, else its
notes fail STATION_LOST (R42, R43, R61). -/
def State.departs (s : State) (a : Nat) (wasOnline : Bool) (new : StationState) (reason : StationReason) : State :=
  if wasOnline then s.leaveOnline a new reason else s.loseNotes a

/-- What a withdrawal clears; lane, note toggle and counters are kept (R42). -/
def Station.cleared (t : Station) : Station :=
  { t with
    accepted := none, candidate := none, missCount := 0, busyRun := 0, unackedPolls := 0, abortPending := false
    heard := false }

/-- The station becomes FREE (R42). -/
def State.withdraw (s : State) (a : Nat) : State :=
  ((s.modStation a fun t => { t with state := .free }).departs a (s.isOnline a) .free .withdraw).modStation a
    Station.cleared

def stationWithdraw (body : List Octet) (s : State) : Answered :=
  match body with
  | [a] =>
    if isStation a.toNat = false then answer s .badArg
    else if s.isSource a.toNat then answer s .inUse
    else if (s.station a.toNat).state = .free then answer s .badState
    else answer (s.withdraw a.toNat) .ok
  | _ => answer s .badArg

def execStationWithdraw (tag : Octet) (body : List Octet) (s : State) : Host.Outcome State Fault Refusal :=
  serve { kind := 0x06#8, tag := tag, body := body } (stationWithdraw body) s

/-! ## STATION.BAR (R43) -/

/-- The station becomes BARRED (R43). -/
def State.bar (s : State) (a : Nat) : State :=
  (s.modStation a fun t => { t with state := .barred, missCount := 0, candidate := none }).departs a (s.isOnline a)
    .barred .bar

def stationBar (body : List Octet) (s : State) : Answered :=
  match body with
  | [a] =>
    if isStation a.toNat = false then answer s .badArg
    else
      match (s.station a.toNat).state with
      | .free => answer s .badState
      | .barred => answer s .ok
      | .offline | .joining | .online | .silent => answer (s.bar a.toNat) .ok
  | _ => answer s .badArg

def execStationBar (tag : Octet) (body : List Octet) (s : State) : Host.Outcome State Fault Refusal :=
  serve { kind := 0x07#8, tag := tag, body := body } (stationBar body) s

/-! ## STATION.UNBAR (R44) -/

def stationUnbar (body : List Octet) (s : State) : Answered :=
  match body with
  | [a] =>
    if isStation a.toNat = false then answer s .badArg
    else if (s.station a.toNat).state = .barred then
      answer (s.modStation a.toNat fun t => { t with state := .offline, missCount := 0, candidate := none }) .ok
    else answer s .badState
  | _ => answer s .badArg

def execStationUnbar (tag : Octet) (body : List Octet) (s : State) : Host.Outcome State Fault Refusal :=
  serve { kind := 0x08#8, tag := tag, body := body } (stationUnbar body) s

/-! ## STATION.BIND (R45) -/

/-- The station owns the open window. -/
def State.ownsWindow (s : State) (a : Nat) : Bool := s.window.window.any fun w => decide (w.owner = a)

def stationBind (body : List Octet) (s : State) : Answered :=
  match body with
  | [a, l] =>
    if (isStation a.toNat && isLane l.toNat) = false then answer s .badArg
    else if (s.station a.toNat).state = .free then answer s .badState
    else if s.ownsWindow a.toNat then answer s .busy
    else answer (s.modStation a.toNat fun t => { t with lane := l.toNat }) .ok
  | _ => answer s .badArg

def execStationBind (tag : Octet) (body : List Octet) (s : State) : Host.Outcome State Fault Refusal :=
  serve { kind := 0x09#8, tag := tag, body := body } (stationBind body) s

/-! ## STATION.READ (R46) -/

/-- The fields of an entry, as STATION.READ carries them (11.5). -/
def Station.fields (t : Station) (a : Nat) : List Octet :=
  o8 a ++ o8 t.state.code ++ o8 t.lane ++ o8? t.accepted ++ o8? t.candidate ++ o8 t.missCount ++ oFlag t.noteToggle
    ++ oFlag t.abortPending ++ o8 t.busyRun ++ o8 t.unackedPolls ++ oFlag t.heard ++ o16 t.missesTotal
    ++ o16 t.malformedAnswers ++ o16 t.badCheckPackets ++ o16 t.windowsGranted

/-- The entry with its four counters at 0 (R46, R47). -/
def Station.zeroCounters (t : Station) : Station :=
  { t with missesTotal := 0, malformedAnswers := 0, badCheckPackets := 0, windowsGranted := 0 }

def stationRead (body : List Octet) (s : State) : Answered :=
  match body with
  | [a, clear] =>
    match flag? clear with
    | none => answer s .badArg
    | some clear =>
      if isStation a.toNat = false then answer s .badArg
      else
        answer (if clear then s.modStation a.toNat Station.zeroCounters else s) .ok
          ((s.station a.toNat).fields a.toNat)
  | _ => answer s .badArg

def execStationRead (tag : Octet) (body : List Octet) (s : State) : Host.Outcome State Fault Refusal :=
  serve { kind := 0x0A#8, tag := tag, body := body } (stationRead body) s

end Sys2Proof.Machine
end

