-- ==== Sys2Proof/Machine/Dispatch.lean ====
section
/-! DEFINITION. The dispatch: one arm per command. -/

namespace Sys2Proof.Machine

/-- The effect of a command on everything but the queue. -/
def exec (i : Instr) (s : State) : Host.Outcome State Fault Refusal :=
  match i with
  | .lineStart tag body => Sys2Proof.Machine.execLineStart tag body s
  | .lineStop tag body => Sys2Proof.Machine.execLineStop tag body s
  | .lineSet tag body => Sys2Proof.Machine.execLineSet tag body s
  | .stats tag body => Sys2Proof.Machine.execStats tag body s
  | .stationEnrol tag body => Sys2Proof.Machine.execStationEnrol tag body s
  | .stationWithdraw tag body => Sys2Proof.Machine.execStationWithdraw tag body s
  | .stationBar tag body => Sys2Proof.Machine.execStationBar tag body s
  | .stationUnbar tag body => Sys2Proof.Machine.execStationUnbar tag body s
  | .stationBind tag body => Sys2Proof.Machine.execStationBind tag body s
  | .stationRead tag body => Sys2Proof.Machine.execStationRead tag body s
  | .noteSend tag body => Sys2Proof.Machine.execNoteSend tag body s
  | .noteCancel tag body => Sys2Proof.Machine.execNoteCancel tag body s
  | .laneSet tag body => Sys2Proof.Machine.execLaneSet tag body s
  | .circuitOpen tag body => Sys2Proof.Machine.execCircuitOpen tag body s
  | .circuitClose tag body => Sys2Proof.Machine.execCircuitClose tag body s
  | .slotMap tag body => Sys2Proof.Machine.execSlotMap tag body s
  | .packetSend tag body => Sys2Proof.Machine.execPacketSend tag body s
  | .packetAdd tag body => Sys2Proof.Machine.execPacketAdd tag body s
  | .packetCancel tag body => Sys2Proof.Machine.execPacketCancel tag body s
  | .laneReset tag body => Sys2Proof.Machine.execLaneReset tag body s
  | .laneRead tag body => Sys2Proof.Machine.execLaneRead tag body s
  | .mailboxSet tag body => Sys2Proof.Machine.execMailboxSet tag body s
  | .mailboxTake tag body => Sys2Proof.Machine.execMailboxTake tag body s
  | .mailboxFlush tag body => Sys2Proof.Machine.execMailboxFlush tag body s
  | .reportAck tag body => Sys2Proof.Machine.execReportAck tag body s
  | .reportResend tag body => Sys2Proof.Machine.execReportResend tag body s
  | .linkSet tag body => Sys2Proof.Machine.execLinkSet tag body s
  | .linkHello tag body => Sys2Proof.Machine.execLinkHello tag body s
  | .deviceRestart tag body => Sys2Proof.Machine.execDeviceRestart tag body s
  | .unknownRequest kind tag body => Sys2Proof.Machine.execUnknownRequest kind tag body s
  | .powerOn => Sys2Proof.Machine.execPowerOn s
  | .resetPinAssert => Sys2Proof.Machine.execResetPinAssert s
  | .resetPinRelease => Sys2Proof.Machine.execResetPinRelease s
  | .restartTakesEffect => Sys2Proof.Machine.execRestartTakesEffect s
  | .rateChange => Sys2Proof.Machine.execRateChange s
  | .linkResync => Sys2Proof.Machine.execLinkResync s
  | .breakEnd => Sys2Proof.Machine.execBreakEnd s
  | .rxCharacter octet stopHigh => Sys2Proof.Machine.execRxCharacter octet stopHigh s
  | .txFrameEnd => Sys2Proof.Machine.execTxFrameEnd s
  | .cycleStart => Sys2Proof.Machine.execCycleStart s
  | .cycleEnd marker readback => Sys2Proof.Machine.execCycleEnd marker readback s
  | .readbackFault marker readback => Sys2Proof.Machine.execReadbackFault marker readback s
  | .runningReached => Sys2Proof.Machine.execRunningReached s
  | .answerArrival octet => Sys2Proof.Machine.execAnswerArrival octet s
  | .bidArrival octet => Sys2Proof.Machine.execBidArrival octet s
  | .windowUpOctet slot octet => Sys2Proof.Machine.execWindowUpOctet slot octet s
  | .circuitUpOctet slot octet => Sys2Proof.Machine.execCircuitUpOctet slot octet s
  | .circuitDownSlot slot => Sys2Proof.Machine.execCircuitDownSlot slot s
  | .laneDownSlotTurn slot => Sys2Proof.Machine.execLaneDownSlotTurn slot s
  | .stationMissLimit octet => Sys2Proof.Machine.execStationMissLimit octet s
  | .lineQuiet octet => Sys2Proof.Machine.execLineQuiet octet s
  | .busyTimeout octet => Sys2Proof.Machine.execBusyTimeout octet s
  | .noAck octet => Sys2Proof.Machine.execNoAck octet s
  | .windowOverrun => Sys2Proof.Machine.execWindowOverrun s
  | .windowEmpty slot octet => Sys2Proof.Machine.execWindowEmpty slot octet s
  | .gapEnd lane => Sys2Proof.Machine.execGapEnd lane s

end Sys2Proof.Machine
end

