-- ==== Sys2Proof/Safety.lean ====
section
/-! DEFINITION. The vocabulary of the statements: what a request needs to be taken, what a reply adds, what the transmitter may
do at the end of an event, and the invariants of the part. -/

namespace Sys2Proof

/-- The frame that a request command stands for (R159, R164). -/
def Instr.frame? : Instr → Option Machine.Frame
  | .lineStart tag body => some ⟨0x01#8, tag, body⟩
  | .lineStop tag body => some ⟨0x02#8, tag, body⟩
  | .lineSet tag body => some ⟨0x03#8, tag, body⟩
  | .stats tag body => some ⟨0x04#8, tag, body⟩
  | .stationEnrol tag body => some ⟨0x05#8, tag, body⟩
  | .stationWithdraw tag body => some ⟨0x06#8, tag, body⟩
  | .stationBar tag body => some ⟨0x07#8, tag, body⟩
  | .stationUnbar tag body => some ⟨0x08#8, tag, body⟩
  | .stationBind tag body => some ⟨0x09#8, tag, body⟩
  | .stationRead tag body => some ⟨0x0A#8, tag, body⟩
  | .noteSend tag body => some ⟨0x0B#8, tag, body⟩
  | .noteCancel tag body => some ⟨0x0C#8, tag, body⟩
  | .laneSet tag body => some ⟨0x0D#8, tag, body⟩
  | .circuitOpen tag body => some ⟨0x0E#8, tag, body⟩
  | .circuitClose tag body => some ⟨0x0F#8, tag, body⟩
  | .slotMap tag body => some ⟨0x10#8, tag, body⟩
  | .packetSend tag body => some ⟨0x11#8, tag, body⟩
  | .packetAdd tag body => some ⟨0x12#8, tag, body⟩
  | .packetCancel tag body => some ⟨0x13#8, tag, body⟩
  | .laneReset tag body => some ⟨0x14#8, tag, body⟩
  | .laneRead tag body => some ⟨0x15#8, tag, body⟩
  | .mailboxSet tag body => some ⟨0x16#8, tag, body⟩
  | .mailboxTake tag body => some ⟨0x17#8, tag, body⟩
  | .mailboxFlush tag body => some ⟨0x18#8, tag, body⟩
  | .reportAck tag body => some ⟨0x19#8, tag, body⟩
  | .reportResend tag body => some ⟨0x1A#8, tag, body⟩
  | .linkSet tag body => some ⟨0x1B#8, tag, body⟩
  | .linkHello tag body => some ⟨0x1C#8, tag, body⟩
  | .deviceRestart tag body => some ⟨0x1D#8, tag, body⟩
  | .unknownRequest kind tag body => if isRequestKind kind then none else some ⟨kind, tag, body⟩
  | .powerOn | .resetPinAssert | .resetPinRelease | .restartTakesEffect | .rateChange | .linkResync | .breakEnd
  | .rxCharacter .. | .txFrameEnd | .cycleStart | .cycleEnd .. | .readbackFault .. | .runningReached
  | .answerArrival .. | .bidArrival .. | .windowUpOctet .. | .circuitUpOctet .. | .circuitDownSlot ..
  | .laneDownSlotTurn .. | .stationMissLimit .. | .lineQuiet .. | .busyTimeout .. | .noAck .. | .windowOverrun
  | .windowEmpty .. | .gapEnd .. => none

namespace Machine

/-! ## Requests and replies -/

/-- The request processor can take the frame (R164, R172; log entry 2 for an empty intake). -/
def CanTake (s : State) (f : Frame) : Prop :=
  s.pin = .high ∧ s.link.hold = none ∧ s.link.replies.length < Config.replyQueue
    ∧ (s.link.intake.head? = some f ∨ (s.link.intake = [] ∧ s.link.rxLow = false))

/-- The oldest frame has left the intake and a reply has joined the reply queue (R164). -/
def State.replied (s : State) (kind tag : Octet) (body : List Octet) : State :=
  { s with
    link :=
      { s.link with
        intake := s.link.intake.tail
        replies := s.link.replies ++ [{ kind := kind, tag := tag, body := body }] } }

/-- The sizes of request bodies (11.4, R190): whether a body of a request kind passes the size test of R164. -/
def bodySizeOk (kind : Octet) (body : List Octet) : Bool :=
  match kind.toNat with
  | 0x01 | 0x02 | 0x04 | 0x10 | 0x1A | 0x1C | 0x1D => decide (body.length = 0)
  | 0x06 | 0x07 | 0x08 | 0x0F | 0x14 | 0x15 | 0x17 | 0x18 | 0x19 | 0x1B => decide (body.length = 1)
  | 0x05 | 0x09 | 0x0A | 0x0C | 0x13 => decide (body.length = 2)
  | 0x03 => decide (body.length = 6)
  | 0x16 => decide (body.length = 7)
  | 0x0B => decide (1 ≤ body.length ∧ body.length ≤ 17)
  | 0x0D =>
    let down := ((body[3]?).map (·.toNat)).getD 0
    let up := ((body[4 + down]?).map (·.toNat)).getD 0
    decide (5 ≤ body.length ∧ down ≤ 43 ∧ body.length = 5 + down + up)
  | 0x0E =>
    let width := ((body[1]?).map (·.toNat)).getD 0
    decide (3 ≤ body.length ∧ (body.length = 3 + 2 * width ∨ ¬(1 ≤ width ∧ width ≤ 4)))
  | 0x11 => decide (5 ≤ body.length ∧ body.length ≤ 517)
  | 0x12 => decide (2 ≤ body.length ∧ body.length ≤ 514)
  | _ => true

/-! ## The end of an event -/

/-- The report unit `v` is `u`, but for reports that have started going out (R181, R184): what the window and the queue hold
together is the same, in the same order, and nothing else has changed. -/
structure ReportUnit.Sends (u v : ReportUnit) : Prop where
  stream : v.window.map (·.report) ++ v.queue = u.window.map (·.report) ++ u.queue
  window : u.window <+: v.window
  resend : v.resend <:+ u.resend
  entries : v.entries = u.entries
  lostCount : v.lostCount = u.lostCount
  kindsLost : v.kindsLost = u.kindsLost

/-- The state `t` is `u` after the transmitter's choice at the end of an event (R166): an idle transmitter may have started a
frame, and nothing else has changed; a busy one has started nothing. -/
structure Settles (u t : State) : Prop where
  line : t.line = u.line
  poll : t.poll = u.poll
  notes : t.notes = u.notes
  slots : t.slots = u.slots
  circuits : t.circuits = u.circuits
  lanes : t.lanes = u.lanes
  lastPacketHandle : t.lastPacketHandle = u.lastPacketHandle
  window : t.window = u.window
  rx : t.rx = u.rx
  mailboxes : t.mailboxes = u.mailboxes
  free : t.free = u.free
  pin : t.pin = u.pin
  pending : t.pending = u.pending
  rep : u.rep.Sends t.rep
  link : { t.link with tx := u.link.tx } = u.link
  busy : u.link.tx ≠ .idle → t = u

/-- What an idle transmitter's choice makes of `u` at the end of a frame (R166, R181, R184): the oldest reply starts, else
the first report to resend, else the front report of the queue when the window has room, else nothing. -/
structure NextFrame (u t : State) : Prop where
  reply : u.link.replies ≠ [] → t = { u with link := { u.link with tx := .reply } }
  resend : ∀ x rest, u.link.replies = [] → u.rep.resend = x :: rest →
    t = { u with rep := { u.rep with resend := rest }, link := { u.link with tx := .report x.frame } }
  fresh : ∀ r q, u.link.replies = [] → u.rep.resend = [] → u.rep.window.length < 8 → u.rep.queue = r :: q →
    t = { u with
      rep :=
        { u.rep with
          queue := q, window := u.rep.window ++ [{ seq := u.rep.nextSeq, report := r }], nextSeq := u.rep.nextSeq + 1 }
      link := { u.link with tx := .report (SentReport.frame { seq := u.rep.nextSeq, report := r }) } }
  idle : u.link.replies = [] → u.rep.resend = [] → (8 ≤ u.rep.window.length ∨ u.rep.queue = []) → t = u

/-- What the transmitter's choice at the end of an event makes of `u` (R166, R168, R172): no frame starts while one is being sent,
while the receive line is low or while the RESET pin is low; else the frame that is available starts, and when a reply and a
report are available together either may (log entry 1). -/
structure Chooses (u t : State) : Prop where
  held : u.pin ≠ .high ∨ u.link.rxLow = true ∨ u.link.tx ≠ .idle → t = u
  one : u.pin = .high → u.link.rxLow = false → u.link.tx = .idle →
    ¬(u.link.replies ≠ [] ∧ (u.rep.resend ≠ [] ∨ (u.rep.window.length < 8 ∧ u.rep.queue ≠ []))) → NextFrame u t
  both : u.pin = .high → u.link.rxLow = false → u.link.tx = .idle → u.link.replies ≠ [] →
    (u.rep.resend ≠ [] ∨ (u.rep.window.length < 8 ∧ u.rep.queue ≠ [])) →
    t = { u with choices := u.choices + 1, link := { u.link with tx := .reply } }
      ∨ ∃ v, NextFrame { u with choices := u.choices + 1, link := { u.link with replies := [] } } v
        ∧ t = { v with link := { v.link with replies := u.link.replies } }

/-- The command answers a next state: `u`, after the transmitter's choice at the end of the event (R166): nothing else has changed,
and the frame that starts is the one the choice gives. -/
def Gives (c : Instr) (s u : State) : Prop := ∃ t, exec c s = .next t ∧ Settles u t ∧ Chooses u t

/-! ## Effects that several commands share -/

/-- What no event of the line, a station, a lane or a slot changes: the host link, the RESET pin, the packet handles, the
reports that have gone out, and the model's own fields. -/
structure Apart (s u : State) : Prop where
  link : u.link = s.link
  pin : u.pin = s.pin
  handles : u.lastPacketHandle = s.lastPacketHandle
  sent : u.rep.window = s.rep.window ∧ u.rep.nextSeq = s.rep.nextSeq ∧ u.rep.resend = s.rep.resend
  choices : u.choices = s.choices
  pending : u.pending = s.pending

/-- The commands that are the cycle start of a RUNNING line in the state: CYCLE_START, and GAP_END and WINDOW_OVERRUN in
their case (R98, R128; log entry 7). -/
def StartsCycle (c : Instr) (s : State) : Prop :=
  c = .cycleStart
    ∨ (∃ l, c = .gapEnd l ∧ l < 4 ∧ (s.lane l).engine = .gap ∧ 2 ≤ (s.lane l).gapCount)
    ∨ (c = .windowOverrun ∧ ∃ w, s.window.window = some w ∧ s.line.settings.windowLimit ≤ w.cyclesUsed)

/-- `a` is the address after `pointer` among the addresses from 1 to 30 that satisfy `p` (R23): the lowest above the pointer,
else the lowest. -/
def NextAfter (p : Nat → Prop) (pointer a : Nat) : Prop :=
  (1 ≤ a ∧ a ≤ 30) ∧ p a
    ∧ ((pointer < a ∧ ∀ b, 1 ≤ b → b ≤ 30 → p b → pointer < b → a ≤ b)
      ∨ ((∀ b, 1 ≤ b → b ≤ 30 → p b → b ≤ pointer) ∧ ∀ b, 1 ≤ b → b ≤ 30 → p b → a ≤ b))

/-- `e` wins among the entries of `l` (R72): the highest precedence, and among equals the one nearest the front. -/
def Wins (l : List ReclaimEntry) (e : ReclaimEntry) : Prop :=
  ∃ A B, l = A ++ e :: B ∧ (∀ x ∈ A, x.prec < e.prec) ∧ ∀ x ∈ B, x.prec ≤ e.prec

/-- A circuit with both stores empty, collecting nothing before the next cycle start (R81). -/
def Circuit.emptied (c : Circuit) : Circuit :=
  { c with
    incoming := List.replicate c.up.length none, outgoing := List.replicate c.up.length none, collects := false }

/-- The receiver after it has discarded its packet in progress (R150). -/
def Receiver.discarded (r : Receiver) : Receiver :=
  if r.state = .idle then r
  else { r with state := .idle, record := .empty, cutShort := min 65535 (r.cutShort + 1) }

/-- A receive fault (R162): the framer is left as `framer`, the link fault count rises, and LINK_FAULT is handed over with one
fault of the cause. -/
def State.linkFaulted (s : State) (framer : Framer) (cause : LinkFaultCause) : State :=
  { s with
    link := { s.link with framer := framer, faultCount := min 65535 (s.link.faultCount + 1) }
    rep := s.rep.handOver (.linkFault (cause.counts (min 65535 (s.link.faultCount + 1)))) }

/-- Some note for station `a` is IN_FLIGHT. -/
def State.inFlightFor (s : State) (a : Nat) : Bool :=
  s.notes.store.any fun n => decide (n.station = a ∧ n.state = .inFlight)

/-- The blocks of the packets SENDING or ABORTING at the heads of the lanes. -/
def State.startedBlocks (s : State) : Nat :=
  (s.lanes.map fun x => ((x.queue.head?.filter Packet.started).map fun p => blocksFor p.declared).getD 0).sum

/-- The report unit after a completion has been placed at the end of its list, and the transfer has run (R179, R180). -/
def ReportUnit.placed (now : BitVec 16) (u : ReportUnit) (e : Completion) : ReportUnit :=
  ReportUnit.transfer now { u with entries := u.entries ++ [e] }

/-- The completion of a note that finishes with its present index (R58). -/
def Note.completion (n : Note) (outcome : NoteOutcome) (now : BitVec 16) : Completion :=
  .note
    { handle := n.handle, station := n.station, outcome := outcome, length := n.octets.length, acknowledged := n.nextIndex
      cycle := now }

/-- The completion of a packet of lane `l` that was SENDING or ABORTING and finishes ABORTED (R136, R137). -/
def Packet.abortedCompletion (p : Packet) (l : Nat) (reason : PacketReason) (now : BitVec 16) : Completion :=
  .packet
    { handle := p.handle, lane := l, destination := p.destination, port := p.port, declared := p.declared
      outcome := .aborted, reason := some reason
      bodySent :=
        if p.state = .sending then min (p.position - 4) p.declared else if p.state = .aborting then p.bodySent else 0
      received := p.body.length, cycle := now }

/-- What the line-down effects hand over to the report unit `rep`, in this order (R13, R35, R62, R104, R135; log entry 14):
STATION_STATE for each ONLINE station, ascending; the IN_FLIGHT notes, stations ascending, LINE_STOPPED; the packets SENDING
or ABORTING, lanes ascending, ABORTED with LINE_STOPPED. -/
def State.lineDownReports (s : State) (rep : ReportUnit) : ReportUnit :=
  let now := s.line.cycleCounter
  let stations : List Report := ((List.range' 1 30).filter fun a => decide ((s.station a).state = .online)).map fun a =>
    .stationState a .offline .online .lineDown now
  let notes : List Completion := (List.range' 1 30).flatMap fun a =>
    (s.notes.store.filter fun n => decide (n.station = a ∧ n.state = .inFlight)).map fun n => n.completion .lineStopped now
  let packets : List Completion := (List.range 4).filterMap fun l =>
    ((s.lane l).queue.head?.filter fun p => decide (p.state = .sending ∨ p.state = .aborting)).map fun p =>
      p.abortedCompletion l .lineStopped now
  (notes ++ packets).foldl (ReportUnit.placed now) (stations.foldl ReportUnit.handOver rep)

/-- What the notes of station `a` hand over to the report unit `rep` when they all fail STATION_LOST, in acceptance order
(R58, R61). -/
def State.lostNotesReports (s : State) (a : Nat) (rep : ReportUnit) : ReportUnit :=
  ((s.notes.store.filter fun n => decide (n.station = a)).map fun n =>
    n.completion .stationLost s.line.cycleCounter).foldl (ReportUnit.placed s.line.cycleCounter) rep

/-- What the departure of station `a` from ONLINE hands over, in the order of R34 (log entry 14): STATION_STATE with the new
state and the reason, the notes' completions, CIRCUIT_STATE for each LIVE circuit of that source, ascending (R83). -/
def State.departureReports (s : State) (a : Nat) (new : StationState) (reason : StationReason) : ReportUnit :=
  let now := s.line.cycleCounter
  let circuits : List Report := (List.range 12).filterMap fun n => (s.circuit n).bind fun c =>
    if c.source = a ∧ c.state = .live then some (.circuitState n a .muted .live .sourceLeft none now) else none
  circuits.foldl ReportUnit.handOver
    (s.lostNotesReports a (s.rep.handOver (.stationState a new .online reason now)))

/-- The line-down effects (R13) on `s` give `u`, the line engine and the report unit apart: the stations (R35), the notes
(R62), the window and the receiver (R104, R150), the lanes (R135), the circuits (R81); what R13 keeps is kept. -/
structure LineDown (s u : State) : Prop where
  stations : ∀ a, 1 ≤ a → a ≤ 30 → u.station a =
    (let t := if (s.station a).state = .free ∨ (s.station a).state = .barred then s.station a
      else { s.station a with state := .offline, missCount := 0, candidate := none }
     { t with abortPending := t.abortPending || s.inFlightFor a })
  calls : u.poll = { s.poll with stations := u.poll.stations }
  notes : u.notes = { s.notes with store := s.notes.store.filter fun n => decide (n.state ≠ .inFlight) }
  window : u.window = { s.window with window := none, queue := [] }
  receiver : u.rx = s.rx.discarded
  free : u.free = s.free + s.rx.held + s.startedBlocks
  lanes : ∀ l, l < 4 → u.lane l =
    { s.lane l with
      engine := .idle, activeSet := [], gapCount := 0, runningCheck := 0xFFFF#16
      queue := if ((s.lane l).queue.head?.any Packet.started) = true then (s.lane l).queue.tail else (s.lane l).queue }
  circuits : ∀ n, u.circuit n = (s.circuit n).map Circuit.emptied
  slots : u.slots = s.slots
  mailboxes : u.mailboxes = s.mailboxes
  handles : u.lastPacketHandle = s.lastPacketHandle
  resend : u.rep.resend = s.rep.resend

/-- A station that was ONLINE has left it (R34, R61, R83, R95, R102): `u` against `s`, the station's own entry and the report
unit apart. -/
structure Departure (s u : State) (a : Nat) : Prop where
  others : ∀ b, b ≠ a → u.station b = s.station b
  calls : u.poll = { s.poll with stations := u.poll.stations }
  notes : u.notes = { s.notes with store := s.notes.store.filter fun n => decide (n.station ≠ a) }
  queue : u.window.queue = s.window.queue.filter fun b => decide (b ≠ a)
  counters : u.window.bidCollisions = s.window.bidCollisions ∧ u.window.ignoredBids = s.window.ignoredBids
  owner : ∀ w, s.window.window = some w → w.owner = a →
    u.window.window = none ∧ u.rx = s.rx.discarded ∧ u.free = s.free + s.rx.held
  notOwner : (∀ w, s.window.window = some w → w.owner ≠ a) →
    u.window.window = s.window.window ∧ u.rx = s.rx ∧ u.free = s.free
  circuits : ∀ n, n < 12 → u.circuit n = (s.circuit n).map fun c =>
    if c.source = a ∧ c.state = .live then { c.emptied with state := .muted } else c
  slots : u.slots = s.slots
  lanes : u.lanes = s.lanes
  mailboxes : u.mailboxes = s.mailboxes
  handles : u.lastPacketHandle = s.lastPacketHandle

/-! ### Slots that change hands (R68, R71, R72) -/

/-- One step after another: `R x` leads from each state to the next, for the items of the list in turn. -/
def Through (R : α → State → State → Prop) : List α → State → State → Prop
  | [], s, u => u = s
  | x :: rest, s, u => ∃ t, R x s t ∧ Through R rest t u

/-- Down slots before up slots, each direction ascending (R67, R68, R76, R84, R85). -/
def InOrder (l : List SlotRef) : Prop :=
  l.Pairwise fun a b => (a.1 = .down ∧ b.1 = .up) ∨ (a.1 = b.1 ∧ a.2 < b.2)

/-- The map gives the slot to the owner (R65). -/
def State.owns (s : State) (o : Owner) (d : Dir) (slot : Nat) : Prop :=
  ∃ e, s.mapEntry d slot = some e ∧ e.owner = o

/-- The circuit's list in a direction (R79). -/
def Circuit.slots (c : Circuit) : Dir → List Nat
  | .down => c.down
  | .up => c.up

/-- Circuit `n` owns every slot of both its lists (R82). -/
def State.ownsAll (s : State) (n : Nat) (c : Circuit) : Prop := ∀ d, ∀ x ∈ c.slots d, s.owns (.circuit n) d x

/-- The owner `o` lets a slot go (R72): it is then nobody's, or it goes to the entry that wins it, whose owner is told: a lane
by SLOT_EVENT REGAINED (R78, R86); a DISPLACED circuit that is whole again becomes LIVE or MUTED, by CIRCUIT_STATE
SLOTS_REGAINED (R82, R87); a circuit that is not, by nothing. -/
structure LetsGo (o : Owner) (r : SlotRef) (s t : State) : Prop where
  map : ∀ d x, (d, x) ≠ r → t.mapEntry d x = s.mapEntry d x
  unclaimed : (∀ e ∈ s.slots.reclaim, ¬(e.dir = r.1 ∧ e.slot = r.2)) →
    t.mapEntry r.1 r.2 = none ∧ t.slots.reclaim = s.slots.reclaim ∧ t = { s with slots := t.slots }
  won : ∀ e, Wins (s.slots.reclaim.filter fun e => decide (e.dir = r.1 ∧ e.slot = r.2)) e →
    t.mapEntry r.1 r.2 = some { owner := e.owner, prec := e.prec } ∧ t.slots.reclaim = s.slots.reclaim.erase e
      ∧ (∀ l, e.owner = .lane l → t =
        { s with
          slots := t.slots
          rep := s.rep.handOver (.slotEvent l r.1 r.2 .regained o none none s.line.cycleCounter) })
      ∧ (∀ n c, e.owner = .circuit n → s.circuit n = some c → c.state = .displaced → t.ownsAll n c →
        let new : CircuitState := if (s.station c.source).state = .online then .live else .muted
        t =
          { s with
            slots := t.slots, circuits := s.circuits.set n (some { c.emptied with state := new })
            rep := s.rep.handOver
              (.circuitState n c.source new .displaced .slotsRegained none s.line.cycleCounter) })
      ∧ (∀ n, e.owner = .circuit n → (∀ c, s.circuit n = some c → c.state = .displaced → ¬t.ownsAll n c) →
        t = { s with slots := t.slots })

/-- Lane `l` is told of the loss of a slot (R77): a packet in progress on an active down slot finishes ABORTED with SLOTS_LOST
and the engine goes to GAP (R134, R136); a window open on the lane with the up slot in its up set ends SLOTS_LOST, which
discards the packet in progress (R100, R103, R105, R150); in any other case nothing more happens. -/
structure LaneTold (l : Nat) (r : SlotRef) (s t : State) : Prop where
  packet : ∀ p rest, r.1 = .down → (s.lane l).engine = .sending ∨ (s.lane l).engine = .aborting →
    r.2 ∈ (s.lane l).activeSet → (s.lane l).queue = p :: rest → (∀ q ∈ rest, q.handle ≠ p.handle) →
    t =
      { s with
        lanes := s.lanes.set l { s.lane l with engine := .gap, activeSet := [], gapCount := 0, queue := rest }
        free := s.free + max 1 ((p.declared + 31) / 32)
        rep := s.rep.placed s.line.cycleCounter (p.abortedCompletion l .slotsLost s.line.cycleCounter) }
  idle : r.1 = .down →
    ¬(((s.lane l).engine = .sending ∨ (s.lane l).engine = .aborting) ∧ r.2 ∈ (s.lane l).activeSet
      ∧ (s.lane l).queue ≠ []) → t = s
  window : ∀ w, r.1 = .up → s.window.window = some w → w.lane = l → r.2 ∈ w.upSet →
    t =
      { s with
        window := { s.window with window := none }, rx := s.rx.discarded, free := s.free + s.rx.held
        rep := s.rep.handOver
          (.rxFault
            { fault := .slotsLost, owner := w.owner, lane := w.lane, port := s.rx.record.port
              length := s.rx.record.length, cyclesUsed := w.cyclesUsed, slotLost := some r.2, stationField := none
              checks := none, cycle := s.line.cycleCounter }) }
  other : r.1 = .up → (∀ w, s.window.window = some w → ¬(w.lane = l ∧ r.2 ∈ w.upSet)) → t = s

/-- One loss of a claim by `o` at `prec` is taken (R68 step 2): the slot and the entry it had. While the Reclaim List holds fewer
than 64 entries the loser's entry joins its end (R71). A lane is sent SLOT_EVENT LOST (R86) and told. A LIVE or MUTED circuit
becomes DISPLACED, by CIRCUIT_STATE SLOT_LOST (R82, R87), a DISPLACED one stays so. With the list full, a lane loses the slot
outright, and a circuit is closed, by CIRCUIT_STATE NO_RECLAIM (R85); a circuit closed earlier is passed over. -/
structure TakesLoss (o : Owner) (prec : Nat) (x : SlotRef × MapEntry) (s t : State) : Prop where
  lane : ∀ l, x.2.owner = .lane l →
    let room := decide (s.slots.reclaim.length < 64)
    let entry : ReclaimEntry := { owner := .lane l, dir := x.1.1, slot := x.1.2, prec := x.2.prec }
    LaneTold l x.1
      { s with
        slots := { s.slots with reclaim := if room = true then s.slots.reclaim ++ [entry] else s.slots.reclaim }
        rep := s.rep.handOver
          (.slotEvent l x.1.1 x.1.2 .lost o (some prec) (some room) s.line.cycleCounter) } t
  gone : ∀ n, x.2.owner = .circuit n → s.circuit n = none → t = s
  circuit : ∀ n c, x.2.owner = .circuit n → s.circuit n = some c → s.slots.reclaim.length < 64 →
    let entry : ReclaimEntry := { owner := .circuit n, dir := x.1.1, slot := x.1.2, prec := x.2.prec }
    let waits : SlotUnit := { s.slots with reclaim := s.slots.reclaim ++ [entry] }
    (c.state = .displaced → t = { s with slots := waits })
    ∧ (c.state ≠ .displaced → t =
      { s with
        slots := waits, circuits := s.circuits.set n (some { c.emptied with state := .displaced })
        rep := s.rep.handOver
          (.circuitState n c.source .displaced c.state .slotLost (some x.1) s.line.cycleCounter) })
  closed : ∀ n c, x.2.owner = .circuit n → s.circuit n = some c → 64 ≤ s.slots.reclaim.length →
    ∃ (remaining : List SlotRef) (v : State),
      InOrder remaining ∧ (∀ d y, (d, y) ∈ remaining ↔ y ∈ c.slots d ∧ s.owns (.circuit n) d y)
        ∧ Through (LetsGo (.circuit n)) remaining
          { s with
            slots := { s.slots with reclaim := s.slots.reclaim.filter fun e => decide (e.owner ≠ .circuit n) }
            rep := s.rep.handOver
              (.circuitState n c.source .closed c.state .noReclaim (some x.1) s.line.cycleCounter) } v
        ∧ t = { v with circuits := v.circuits.set n none }

/-- A claim by `o` at `prec` of the slots `new` is applied (R68): they are all the claimant's at once, then the losses of the
owners they had are taken, in order. -/
def ClaimApplied (o : Owner) (prec : Nat) (new : Dir → Nat → Prop) (s u : State) : Prop :=
  ∃ (losses : List (SlotRef × MapEntry)) (v : State),
    (∀ d x, new d x → v.mapEntry d x = some { owner := o, prec := prec })
      ∧ (∀ d x, ¬new d x → v.mapEntry d x = s.mapEntry d x)
      ∧ v.slots.reclaim = s.slots.reclaim ∧ v = { s with slots := v.slots }
      ∧ InOrder (losses.map (·.1))
      ∧ (∀ d x e, ((d, x), e) ∈ losses ↔ new d x ∧ s.mapEntry d x = some e ∧ e.owner ≠ o)
      ∧ Through (TakesLoss o prec) losses v u

/-- The down pair in a STARTING cycle: call 00h, grant 00h, FFh elsewhere (R3, R8, R188). -/
def quietCycle : List Octet := [0x00#8, 0xFF#8, 0xFF#8, 0xFF#8, 0x00#8] ++ List.replicate 43 0xFF#8

/-- No cycle runs on this line: nothing is driven and nothing sampled (R1). -/
def LineEngine.undriven (e : LineEngine) : Prop :=
  e.cycleOpen = false ∧ e.driven = List.replicate 48 0xFF#8 ∧ e.sampleDown = List.replicate 43 none
    ∧ e.sampleUp = List.replicate 43 none

/-! ## Invariants -/

/-- Every table has its size (R22, R65, R79, 2.2). -/
structure Shape (s : State) : Prop where
  stations : s.poll.stations.length = 30
  down : s.slots.down.length = 43
  up : s.slots.up.length = 43
  circuits : s.circuits.length = 12
  lanes : s.lanes.length = 4
  mailboxes : s.mailboxes.length = 8
  driven : s.line.driven.length = 48

/-- Live handles are distinct (R50, R121), at most 96 Completion List places are held (R179), and every note held is for a
station with an address from 1 to 30 (R49, R51). -/
structure LiveHandles (s : State) : Prop where
  notes : s.liveNotes.Nodup
  packets : s.livePackets.Nodup
  places : s.placesHeld ≤ 96
  stations : ∀ n ∈ s.notes.store, 1 ≤ n.station ∧ n.station ≤ 30

/-- Every block of the pool is in exactly one place (R108); a packet in BODY or CHECK has its mailbox (R143). -/
structure PoolSound (s : State) : Prop where
  total : s.free + s.txHeld + s.mailHeld + s.rx.held = 256
  mailbox : s.rx.state = .body ∨ s.rx.state = .check → ∃ m, s.rx.record.mailbox = some m ∧ m < 8

/-- The bounds and the order of the report unit between events (R175, R180, R182, R184). -/
structure ReportsSound (s : State) : Prop where
  total : s.rep.queue.length + s.rep.window.length ≤ 64
  window : s.rep.window.length ≤ 8
  numbers : ∀ (i : Nat) (r : SentReport), s.rep.window[i]? = some r →
    r.seq + BitVec.ofNat 8 (s.rep.window.length - i) = s.rep.nextSeq
  resend : s.rep.resend <:+ s.rep.window
  settled : s.rep.queue.length + s.rep.window.length = 64 ∨ (s.rep.lostCount = 0 ∧ s.rep.entries = [])

/-- The host link between events (R163, R166, R168, R169, R171, R172): bounds, an idle transmitter has nothing to send unless
the receive line or the RESET pin is low, a held request's reply has not gone out, and a character of a frame that was cut off
stands only while the receive line is low. -/
structure LinkSound (s : State) : Prop where
  intake : s.link.intake.length ≤ 4
  replies : s.link.replies.length ≤ 4
  sending : s.link.tx = .reply → s.link.replies ≠ []
  silent : s.pin ≠ .high ∨ s.link.rxLow = true → s.link.tx = .idle
  idle : s.pin = .high → s.link.rxLow = false → s.link.tx = .idle →
    s.link.replies = [] ∧ s.rep.available = false
  held : s.link.hold ≠ none → s.link.replies ≠ []
  finishing : s.link.finishing ≠ none → s.pin = .high ∧ s.link.rxLow = true

/-- A packet's record agrees with its state (R120). -/
structure Packet.Sound (p : Packet) : Prop where
  received : p.body.length ≤ p.declared
  filling : p.state = .filling → p.body.length < p.declared
  ready : p.state = .ready → p.body.length = p.declared
  notStarted : p.state = .filling ∨ p.state = .ready → p.position = 0
  position : p.position ≤ p.declared + 6
  reason : p.abortReason.isSome ↔ p.state = .aborting

/-- A lane: its queue holds at most 16 sound records, only the head is SENDING or ABORTING, and the engine is in that state
exactly when the head is (R120, R124). -/
structure Lane.Sound (x : Lane) : Prop where
  depth : x.queue.length ≤ 16
  packets : ∀ p ∈ x.queue, p.Sound
  behind : ∀ p ∈ x.queue.tail, p.state = .filling ∨ p.state = .ready
  sending : x.engine = .sending ↔ ∃ p, x.queue.head? = some p ∧ p.state = .sending
  aborting : x.engine = .aborting ↔ ∃ p, x.queue.head? = some p ∧ p.state = .aborting
  atRest : x.engine = .idle ∨ x.engine = .gap → x.activeSet = []
  gap : x.gapCount ≤ 2

/-- Every lane is sound. -/
def LanesSound (s : State) : Prop := ∀ x ∈ s.lanes, x.Sound

/-- The window unit and the receiver (R90, R93, R97, R104): the Window Queue holds ONLINE stations, each once, and never the
owner, who is ONLINE; nothing is queued, open or being received unless the line is RUNNING. -/
structure WindowSound (s : State) : Prop where
  once : s.window.queue.Nodup
  online : ∀ a ∈ s.window.queue, s.isOnline a = true
  owner : ∀ w, s.window.window = some w → s.isOnline w.owner = true ∧ w.owner ∉ s.window.queue
  running : s.line.state ≠ .running → s.window.window = none ∧ s.window.queue = []
  receiving : s.rx.state ≠ .idle → s.window.window ≠ none

/-- The present precedence of an owner (R65): that of the lane, or of the open circuit. -/
def State.ownerPrec (s : State) : Owner → Option Nat
  | .lane l => (s.lanes[l]?).map (·.prec)
  | .circuit n => (s.circuit n).map (·.prec)

/-- The owner may own the slot: a circuit owns only slots of its lists (R79, R82). -/
def State.mayOwn (s : State) (o : Owner) (d : Dir) (slot : Nat) : Prop :=
  match o with
  | .lane _ => True
  | .circuit n => ∃ c, s.circuit n = some c ∧ slot ∈ (match d with | .down => c.down | .up => c.up)

/-- A circuit's record (R79): a width from 1 to 4, two lists of payload slots, each slot once in its list. -/
structure Circuit.Sound (c : Circuit) : Prop where
  width : 1 ≤ c.up.length ∧ c.up.length ≤ 4 ∧ c.down.length = c.up.length
  once : ∀ d, (c.slots d).Nodup
  payload : ∀ d, ∀ x ∈ c.slots d, 5 ≤ x ∧ x ≤ 47

/-- The Slot Map, the Reclaim List and the circuits (R65, R69, R79, R82): an entry's precedence is its owner's present one, a
circuit owns and waits for slots of its lists only; the list holds at most 64 entries, for payload slots, one for each owner,
direction and slot, and none for a slot that its owner has; a circuit is LIVE or MUTED exactly when it owns every slot of both
lists, and has an entry for each slot that it does not own. -/
structure MapSound (s : State) : Prop where
  owned : ∀ d slot e, s.mapEntry d slot = some e → s.ownerPrec e.owner = some e.prec ∧ s.mayOwn e.owner d slot
  waited : ∀ e ∈ s.slots.reclaim, s.ownerPrec e.owner = some e.prec ∧ s.mayOwn e.owner e.dir e.slot
  room : s.slots.reclaim.length ≤ 64
  payload : ∀ e ∈ s.slots.reclaim, 5 ≤ e.slot ∧ e.slot ≤ 47
  once : (s.slots.reclaim.map fun e => (e.owner, e.dir, e.slot)).Nodup
  lost : ∀ e ∈ s.slots.reclaim, ¬s.owns e.owner e.dir e.slot
  circuits : ∀ n c, s.circuit n = some c → c.Sound ∧ c.state ≠ .closed
  whole : ∀ n c, s.circuit n = some c → (c.state = .live ∨ c.state = .muted ↔ s.ownsAll n c)
  displaced : ∀ n c, s.circuit n = some c → ∀ d, ∀ x ∈ c.slots d, ¬s.owns (.circuit n) d x →
    ∃ e ∈ s.slots.reclaim, e.owner = .circuit n ∧ e.dir = d ∧ e.slot = x

end Machine

end Sys2Proof
end

