-- ==== Sys2Proof/Certificates/Slice0/Obligations.lean ====
section
/-! DEFINITION. The statements for the provers. Reply kinds, result codes and layouts are those of chapter 11. -/

section

open Sys2Proof Sys2Proof.Machine

/-! ## The part as a whole -/

/-- The command at the front of the queue is carried out on the state with the queue's rest; an empty queue idles (the model's
own step, log entry 11). -/
def Obligations.StepTakesFrontCommand : Prop :=
  (∀ (c : Instr) (s : State), step { s with pending := c :: s.pending } = exec c s)
    ∧ ∀ s : State, s.pending = [] → step s = .next s

/-- The values after power-on (R21, R48, R64, R89, R107, R118, R139, R157, R174, R187), written out. What no rule gives is
the model's: the sample (log entry 5), PART_READY already started as number 0 (entry 8), the receive line not low (entry 9),
the RESET pin high (entry 10), `choices` 0 (entry 1), no character of a cut-off frame (entry 29). -/
def Obligations.ResetStateValues : Prop :=
  State.reset.line =
      { state := .stopped, startCount := 0, cycleCounter := 0#16, cycleTotal := 0#32, mismatchCount := 0, quietCount := 0
        quietReported := false, faultReason := none
        settings :=
          { missLimit := 3, windowLimit := 64, probeInterval := 16, quietLimit := 64, receiveReserve := 32 }
        cycleOpen := false, driven := List.replicate 48 0xFF#8
        sampleDown := List.replicate 43 none, sampleUp := List.replicate 43 none }
    ∧ State.reset.poll =
      { stations := List.replicate 30
          { state := .free, lane := 0, accepted := none, candidate := none, missCount := 0, noteToggle := false
            abortPending := false, busyRun := 0, unackedPolls := 0, heard := false, missesTotal := 0
            malformedAnswers := 0, badCheckPackets := 0, windowsGranted := 0 }
        pollPointer := 0, probePointer := 0, call := .none }
    ∧ State.reset.notes = { store := [], callOut := none, lastHandle := 0 }
    ∧ State.reset.slots =
      { down := List.replicate 43 none, up := List.replicate 43 none, reclaim := [] }
    ∧ State.reset.circuits = List.replicate 12 none
    ∧ State.reset.lanes = List.replicate 4
      { prec := 1, cutThrough := false, engine := .idle, activeSet := [], runningCheck := 0xFFFF#16, gapCount := 0
        queue := [] }
    ∧ State.reset.lastPacketHandle = 0
    ∧ State.reset.window = { window := none, queue := [], bidCollisions := 0, ignoredBids := 0 }
    ∧ (State.reset.rx.state = .idle ∧ State.reset.rx.record = .empty
      ∧ [State.reset.rx.stored, State.reset.rx.badCheck, State.reset.rx.foreign, State.reset.rx.long,
          State.reset.rx.unclaimed, State.reset.rx.cutShort] = [0, 0, 0, 0, 0, 0])
    ∧ State.reset.mailboxes = List.replicate 8
      { filter := { enabled := false, mode := .either, portA := 0x00#8, portB := 0x00#8, general := false, restriction := none }
        records := [], dropped := 0 }
    ∧ State.reset.free = 256
    ∧ State.reset.rep =
      { queue := [], window := [{ seq := 0#8, report := .partReady .powerOn }], nextSeq := 1#8, resend := [], entries := []
        lostCount := 0, kindsLost := 0#16 }
    ∧ State.reset.link =
      { rate := 0, framer := { state := .hunt, escape := false, buffer := [] }, intake := [], hold := none, replies := []
        tx := .report { kind := 0x40#8, tag := 0x00#8, body := [0x00#8, 0x04#8, 0x30#8, 0x01#8] }
        faultCount := 0, rxLow := false, finishing := none }
    ∧ State.reset.pin = .high ∧ State.reset.choices = 0 ∧ State.reset.pending = []

/-- R172: power-on and the RESET pin: every block takes its reset value, the rate is 115,200, and PART_READY goes out with its
cause as number 0; while the pin is low nothing is driven and nothing is sent. The model's own in the states written out: after
a reset the idle transmitter has started PART_READY at once (log entry 8), the receive line is not low, whatever it was before
(entry 9), the sample holds no owner (entry 5), no character of a cut-off frame stands (entry 29), and the counter of open
choices is kept (entry 1). While the pin is low the blocks keep their state, but that the cycle in progress is cut off (entry
3), its driven octets and its sample are emptied (entries 4 and 5) and the frame being sent with its character in progress is
lost; power-on then leaves the pin low, and a second assert does nothing (entry 10). A release of a pin that is high is no
event and changes nothing (entry 11). -/
def Obligations.ResetsGiveResetState : Prop :=
  ∀ s : State,
    (s.pin = .high → exec .powerOn s = .next { State.reset with choices := s.choices, pending := s.pending })
    ∧ (∀ c, s.pin = .low c → exec .powerOn s = .next
        { State.reset with
          rep := { State.reset.rep with queue := [.partReady .powerOn], window := [], nextSeq := 0#8 }
          link := { State.reset.link with tx := .idle }
          pin := .low .powerOn, choices := s.choices, pending := s.pending })
    ∧ (s.pin = .high → exec .resetPinAssert s = .next
        { s with
          pin := .low .pin
          line :=
            { s.line with
              cycleOpen := false, driven := List.replicate 48 0xFF#8
              sampleDown := List.replicate 43 none, sampleUp := List.replicate 43 none }
          link := { s.link with tx := .idle, finishing := none } })
    ∧ (∀ c, s.pin = .low c → exec .resetPinAssert s = .next s)
    ∧ (∀ c, s.pin = .low c → exec .resetPinRelease s = .next
        { State.reset with
          rep := { State.reset.rep with window := [{ seq := 0#8, report := .partReady c }] }
          link := { State.reset.link with tx := .report (SentReport.frame { seq := 0#8, report := .partReady c }) }
          choices := s.choices, pending := s.pending })
    ∧ (s.pin = .high → exec .resetPinRelease s = .next s)

/-! ## Requests in general -/

/-- R164: a request that can be taken leaves the intake and gets one reply, with the kind that answers it and its tag; a
command whose request cannot be taken changes nothing (log entry 11). A kind that is not a request kind (the command
UNKNOWN_REQUEST) is answered UNKNOWN_REQUEST, a body of the wrong size BAD_ARG, and nothing else changes. The model's readings
it rests on too: taking a request (log entry 2). -/
def Obligations.RequestAnsweredOnce : Prop :=
  (∀ (c : Instr) (f : Frame) (s : State), c.frame? = some f →
       (CanTake s f → ∃ u r fields, Gives c s u ∧ u.link.intake = s.link.intake.tail
         ∧ u.link.replies = s.link.replies ++
           [{ kind := if 1 ≤ f.kind.toNat ∧ f.kind.toNat ≤ 29 then f.kind + 0x80#8 else 0x80#8
              tag := f.tag, body := Result.code r :: fields }])
       ∧ (¬CanTake s f → exec c s = .next s))
    ∧ (∀ (c : Instr) (f : Frame) (s : State), c.frame? = some f → CanTake s f →
       (¬(1 ≤ f.kind.toNat ∧ f.kind.toNat ≤ 29) → Gives c s (s.replied 0x80#8 f.tag [0x0A#8]))
       ∧ (1 ≤ f.kind.toNat ∧ f.kind.toNat ≤ 29 → bodySizeOk f.kind f.body = false →
         Gives c s (s.replied (f.kind + 0x80#8) f.tag [0x01#8])))
    ∧ (∀ (kind tag : Octet) (body : List Octet) (s : State), ¬(1 ≤ kind.toNat ∧ kind.toNat ≤ 29) →
      CanTake s ⟨kind, tag, body⟩ →
      Gives (.unknownRequest kind tag body) s (s.replied 0x80#8 tag [0x0A#8]))

/-! ## The host link (chapter 9) -/

/-- R170: LINK.HELLO answers the identity and the capacities, in the octets of 11.5, and changes no state but the host link's, when it
can be taken (R164, with the model's reading of an empty intake, log entry 2). -/
def Obligations.HelloAnswersIdentity : Prop :=
  ∀ (s : State) (tag : Octet), CanTake s ⟨0x1C#8, tag, []⟩ →
    Gives (.linkHello tag []) s
      (s.replied 0x9C#8 tag
        [0x00#8, 0x04#8, 0x30#8, 0x01#8, BitVec.ofNat 8 s.link.rate, 30#8, 48#8, 43#8, 4#8, 16#8, 12#8, 4#8, 8#8, 8#8,
          0x01#8, 0x00#8, 32#8, 0x02#8, 0x00#8, 32#8, 4#8, 16#8, 64#8, 64#8, 8#8, 96#8, 4#8, 4#8, 0x02#8, 0x30#8])

/-- R169: a code outside 0 to 3 is BAD_ARG, the present rate is answered OK; another rate is held until the last stop bit of
its reply, at which the rate changes and the assembly buffer is dropped. That RATE_CHANGE and TX_FRAME_END are one event there
is the model's choice (log entry 7), and that RATE_CHANGE does nothing elsewhere (log entry 11). The model's readings it rests
on too: taking a request (log entry 2). -/
def Obligations.RateChangesAfterReply : Prop :=
  ∀ s : State,
    (∀ (tag code : Octet), CanTake s ⟨0x1B#8, tag, [code]⟩ →
      (4 ≤ code.toNat → Gives (.linkSet tag [code]) s (s.replied 0x9B#8 tag [0x01#8]))
      ∧ (code.toNat < 4 → code.toNat = s.link.rate → Gives (.linkSet tag [code]) s (s.replied 0x9B#8 tag [0x00#8, code]))
      ∧ (code.toNat < 4 → code.toNat ≠ s.link.rate → Gives (.linkSet tag [code]) s
          (let u := s.replied 0x9B#8 tag [0x00#8, code]
           { u with link := { u.link with hold := some (.linkSet code.toNat) } })))
    ∧ (∀ (r : Frame) (code : Nat), s.pin = .high → s.link.tx = .reply → s.link.replies = [r] →
        s.link.hold = some (.linkSet code) → ∀ c, c = .rateChange ∨ c = .txFrameEnd →
        ∃ t : State, exec c s = .next t
          ∧ NextFrame
            { s with
              link :=
                { s.link with
                  rate := code, framer := { state := .hunt, escape := false, buffer := [] }, hold := none
                  replies := [], tx := .idle } } t)
    ∧ (¬(s.pin = .high ∧ s.link.tx = .reply ∧ s.link.replies.length = 1 ∧ ∃ code, s.link.hold = some (.linkSet code)) →
        exec .rateChange s = .next s)

/-- R171: DEVICE.RESTART is held; at the last stop bit of its reply every block takes its reset values, the rate is kept, and
PART_READY goes out with cause RESTART, as number 0 and at once (the model's reading, log entry 8). Of the reset values the
sample (entry 5), the receive line not low (entry 9), the pin high (entry 10), no character of a cut-off frame (entry 29) and
the kept counter of open choices (entry 1) are the model's. That RESTART_TAKES_EFFECT and TX_FRAME_END are one event there is
the model's choice (entry 7), and that RESTART_TAKES_EFFECT does nothing elsewhere (entry 11). The request is taken as entry 2
reads R164. -/
def Obligations.RestartTakesEffectAfterReply : Prop :=
  ∀ s : State,
    (∀ tag : Octet, CanTake s ⟨0x1D#8, tag, []⟩ → Gives (.deviceRestart tag []) s
      (let u := s.replied 0x9D#8 tag [0x00#8]
       { u with link := { u.link with hold := some .restart } }))
    ∧ (∀ r : Frame, s.pin = .high → s.link.tx = .reply → s.link.replies = [r] → s.link.hold = some .restart →
        ∀ c, c = .restartTakesEffect ∨ c = .txFrameEnd → exec c s = .next
          { State.reset with
            rep := { State.reset.rep with window := [{ seq := 0#8, report := .partReady .restart }] }
            link :=
              { State.reset.link with
                rate := s.link.rate
                tx := .report (SentReport.frame { seq := 0#8, report := .partReady .restart }) }
            choices := s.choices, pending := s.pending })
    ∧ (¬(s.pin = .high ∧ s.link.tx = .reply ∧ s.link.replies.length = 1 ∧ s.link.hold = some .restart) →
        exec .restartTakesEffect s = .next s)

/-- R161, R162, R163, R167: what an arriving character does in each state of the framer. `d` is the data octet an octet stands
for, escapes undone. The model's readings it rests on: a command that is no event (log entry 11) and what RX_CHARACTER carries
(log entry 23). -/
def Obligations.CharactersFramed : Prop :=
  ∀ (s : State) (o : Octet),
    let hunting : Framer := { state := .hunt, escape := false, buffer := [] }
    let starting : Framer := { state := .length, escape := false, buffer := [] }
    let f := s.link.framer
    let withFramer := fun (g : Framer) => ({ s with link := { s.link with framer := g } } : State)
    (s.pin ≠ .high ∨ s.link.rxLow = true → ∀ stop, exec (.rxCharacter o stop) s = .next s)
    ∧ (s.pin = .high → s.link.rxLow = false →
      (f.state = .hunt → Gives (.rxCharacter o false) s s)
      ∧ (f.state ≠ .hunt → Gives (.rxCharacter o false) s (s.linkFaulted hunting .framing))
      ∧ (f.state = .hunt → o = 0xD5#8 → Gives (.rxCharacter o true) s (withFramer starting))
      ∧ (f.state = .hunt → o ≠ 0xD5#8 → Gives (.rxCharacter o true) s s)
      ∧ (f.state ≠ .hunt → o = 0xD5#8 →
          Gives (.rxCharacter o true) s (s.linkFaulted starting .cutShort))
      ∧ (f.state ≠ .hunt → f.escape = true → o ≠ 0xD5#8 → o ≠ 0xF5#8 → o ≠ 0xF6#8 →
          Gives (.rxCharacter o true) s (s.linkFaulted hunting .escape))
      ∧ (f.state ≠ .hunt → f.escape = false → o = 0xD6#8 →
          Gives (.rxCharacter o true) s (withFramer { f with escape := true }))
      ∧ (∀ d : Octet,
          (f.escape = false ∧ o = d ∧ o ≠ 0xD5#8 ∧ o ≠ 0xD6#8)
            ∨ (f.escape = true ∧ ((o = 0xF5#8 ∧ d = 0xD5#8) ∨ (o = 0xF6#8 ∧ d = 0xD6#8))) →
          let b := f.buffer ++ [d]
          let length := nat16 ((b[0]?).getD 0) ((b[1]?).getD 0)
          let taken := fun st => withFramer { state := st, escape := false, buffer := b }
          (f.state = .length → b.length < 2 → Gives (.rxCharacter o true) s (taken .length))
          ∧ (f.state = .length → 2 ≤ b.length → length < 2 ∨ 562 < length →
              Gives (.rxCharacter o true) s (s.linkFaulted hunting .length))
          ∧ (f.state = .length → 2 ≤ b.length → 2 ≤ length → length ≤ 562 →
              Gives (.rxCharacter o true) s (taken .content))
          ∧ (f.state = .content → 2 ≤ b.length → b.length < length + 2 →
              Gives (.rxCharacter o true) s (taken .content))
          ∧ (f.state = .content → 2 ≤ b.length → length + 2 ≤ b.length → Gives (.rxCharacter o true) s (taken .check))
          ∧ (f.state = .check → 2 ≤ b.length → b.length < length + 4 → Gives (.rxCharacter o true) s (taken .check))
          ∧ (f.state = .check → 2 ≤ b.length → length + 4 ≤ b.length →
              b.drop (length + 2) ≠ [hi8 (crc (b.take (length + 2))), lo8 (crc (b.take (length + 2)))] →
              Gives (.rxCharacter o true) s (s.linkFaulted hunting .check))
          ∧ (f.state = .check → 2 ≤ b.length → length + 4 ≤ b.length →
              b.drop (length + 2) = [hi8 (crc (b.take (length + 2))), lo8 (crc (b.take (length + 2)))] →
              (s.link.intake.length < 4 → Gives (.rxCharacter o true) s
                { s with
                  link :=
                    { s.link with
                      framer := hunting
                      intake := s.link.intake ++
                        [{ kind := (b[2]?).getD 0, tag := (b[3]?).getD 0, body := (b.drop 4).take (length - 2) }] } })
              ∧ (4 ≤ s.link.intake.length →
                Gives (.rxCharacter o true) s (s.linkFaulted hunting .overrun)))))

/-- R158: a character is a low start bit, the eight data bits, least significant first, and a high stop bit, each for one bit
time of the rate; reading those levels gives the octet back; the transmit line carries them for the frame going out, or for the
one character left of a frame that was cut off (R168), and is high else. R160, R161: the start octet stands nowhere else in a
frame on the wire, the wire form has at most 1 + 2 x (n + 6) octets, and a framer in HUNT takes the wire form of any frame back
to that frame, with no fault. -/
def Obligations.FramerTakesWire : Prop :=
  (∀ o : Octet,
    let levels := [false, o.getLsbD 0, o.getLsbD 1, o.getLsbD 2, o.getLsbD 3, o.getLsbD 4, o.getLsbD 5, o.getLsbD 6,
      o.getLsbD 7, true]
    characterLevels o = levels ∧ readCharacter levels = some (o, true)
      ∧ readCharacter (levels.set 9 false) = some (o, false) ∧ readCharacter (levels.set 0 true) = none)
    ∧ (∀ s : State, s.transmitLevel none = true
      ∧ (∀ k b, s.link.tx = .idle → s.link.finishing = none → s.transmitLevel (some (k, b)) = true)
      ∧ (∀ k o j b, s.link.tx = .idle → s.link.finishing = some (k, o) →
        s.transmitLevel (some (j, b)) = if j = k then ((characterLevels o)[b]?).getD true else true)
      ∧ (∀ f k o b, s.link.tx = .report f ∨ (s.link.tx = .reply ∧ s.link.replies.head? = some f) → f.wire[k]? = some o →
        s.transmitLevel (some (k, b)) = ((characterLevels o)[b]?).getD true))
    ∧ [0, 1, 2, 3, 4].map Config.baud = [some 115200, some 230400, some 460800, some 921600, none]
    ∧ [0, 1, 2, 3].map Config.charactersPerSecond = [some 11520, some 23040, some 46080, some 92160]
    ∧ ∀ (f : Frame), f.body.length ≤ 560 →
    (f.wire.head? = some 0xD5#8 ∧ 0xD5#8 ∉ f.wire.tail ∧ f.wire.length ≤ 1 + 2 * (f.body.length + 6))
    ∧ ∀ s : State, s.link.framer.state = .hunt → s.link.intake.length < 4 →
      f.wire.foldl (fun s o => s.framerOctet o) s
        = { s with
            link :=
              { s.link with
                framer := { state := .hunt, escape := false, buffer := [] }, intake := s.link.intake ++ [f] } }

/-- R168, R186: a break recognised resynchronises the link, the report window goes back to the front of the queue, and every
other block is unchanged. A frame being sent is cut off after the character in progress: the transmit line still carries that
character, and no other; which character it is, and that it stands until the line returns high, is the model's (log entry 29). The
transmitter is given its choice when the line has returned high. A break has no effect while the RESET pin is low (R172), and one
break gives one resync (R167); BREAK_END of a line that is not low, or with the pin low, is no event (log entries 10, 11). -/
def Obligations.BreakResyncsLink : Prop :=
  ∀ s : State,
    let sent : Option Frame := match s.link.tx with
      | .idle => none
      | .reply => s.link.replies.head?
      | .report f => some f
    (s.pin = .high → s.link.rxLow = false →
      ∃ (last : Option (Nat × Octet)) (t : State), exec .linkResync s = .next t
        ∧ t = { s with
          link :=
            { s.link with
              framer := { state := .hunt, escape := false, buffer := [] }, intake := [], hold := none, replies := []
              tx := .idle, rxLow := true, finishing := last }
          rep := ReportUnit.transfer s.now
            { s.rep with
              resend := [], window := [], nextSeq := 0#8
              queue := (s.rep.window.map (·.report) ++ s.rep.queue).foldl
                (fun acc r => (coalesce acc r).getD (acc ++ [r])) [] }
          choices := if sent = none then s.choices else s.choices + 1 }
        ∧ (sent = none → last = none ∧ ∀ k b, t.transmitLevel (some (k, b)) = true)
        ∧ (∀ f, sent = some f → ∃ (k : Nat) (o : Octet), f.wire[k]? = some o ∧ last = some (k, o)
          ∧ (∀ b, t.transmitLevel (some (k, b)) = s.transmitLevel (some (k, b)))
          ∧ ∀ j b, j ≠ k → t.transmitLevel (some (j, b)) = true))
    ∧ (s.pin ≠ .high ∨ s.link.rxLow = true → exec .linkResync s = .next s)
    ∧ (s.pin = .high → s.link.rxLow = true →
        Gives .breakEnd s { s with link := { s.link with rxLow := false, finishing := none } })
    ∧ (s.pin ≠ .high ∨ s.link.rxLow = false → exec .breakEnd s = .next s)

/-- R166: at the last stop bit of a frame a sent reply leaves the reply queue, and the oldest reply goes next, else a report,
else nothing (the reply of a held request: see the two statements on R169 and R171). R181, R184: a report starts from the resend
list first, else from the queue. TX_FRAME_END of an idle transmitter is no event and changes nothing (log entry 11). An idle
transmitter starts a frame at the end of an event; when a reply and a report are there together either may start (log entry 1).
No frame starts while one is being sent, the receive line is low (R168) or the RESET pin is low (R172). That choice is what every
statement of the form `Gives c s u` says of the command c: it answers the state the choice makes of u. -/
def Obligations.TransmitterStartsFrames : Prop :=
  (∀ s : State,
       (s.pin ≠ .high ∨ s.link.tx = .idle → exec .txFrameEnd s = .next s)
       ∧ (∀ f, s.pin = .high → s.link.tx = .report f →
           ∃ t : State, exec .txFrameEnd s = .next t ∧ NextFrame { s with link := { s.link with tx := .idle } } t)
       ∧ (s.pin = .high → s.link.tx = .reply → (s.link.hold = none ∨ s.link.replies.length ≠ 1) →
           ∃ t : State, exec .txFrameEnd s = .next t
             ∧ NextFrame { s with link := { s.link with replies := s.link.replies.tail, tx := .idle } } t))
    ∧ (∀ u : State, u.pin = .high → u.link.rxLow = false → u.link.tx = .idle →
       let report := u.rep.resend ≠ [] ∨ (u.rep.window.length < 8 ∧ u.rep.queue ≠ [])
       (¬(u.link.replies ≠ [] ∧ report) → NextFrame u u.arbitrate)
       ∧ (u.link.replies ≠ [] → report →
         u.arbitrate = { u with choices := u.choices + 1, link := { u.link with tx := .reply } }
         ∨ ∃ t, NextFrame { u with choices := u.choices + 1, link := { u.link with replies := [] } } t
           ∧ u.arbitrate = { t with link := { t.link with replies := u.link.replies } }))
    ∧ (∀ u : State, u.pin ≠ .high ∨ u.link.rxLow = true ∨ u.link.tx ≠ .idle → u.arbitrate = u)
    ∧ (∀ (c : Instr) (s u : State), Gives c s u →
        ¬(u.link.replies ≠ [] ∧ (u.rep.resend ≠ [] ∨ (u.rep.window.length < 8 ∧ u.rep.queue ≠ []))) →
        exec c s = .next u.arbitrate)

/-! ## Reports (chapter 10) -/

/-- R175, R178: a report handed over is folded into an unsent one, else appended while queue and window number fewer than 64,
else lost and counted. R180: the transfer fills the room of the queue with REPORTS_LOST first, then the oldest completions. -/
def Obligations.ReportsQueuedAndTransferred : Prop :=
  (∀ (u : ReportUnit) (r : Report),
       (∀ q, coalesce u.queue r = some q → u.handOver r = { u with queue := q })
       ∧ (coalesce u.queue r = none → u.queue.length + u.window.length < 64 →
           u.handOver r = { u with queue := u.queue ++ [r] })
       ∧ (coalesce u.queue r = none → 64 ≤ u.queue.length + u.window.length →
           u.handOver r =
             { u with lostCount := min 65535 (u.lostCount + 1), kindsLost := u.kindsLost ||| (1#16 <<< r.kindIndex) }))
    ∧ (∀ (u : ReportUnit) (now : BitVec 16),
       let room := 64 - (u.queue.length + u.window.length)
       let lost : List Report := if 0 < u.lostCount then [.reportsLost u.lostCount u.kindsLost now] else []
       (u.transfer now).queue = u.queue ++ (lost ++ u.entries.map Completion.report).take room
       ∧ (u.transfer now).entries = u.entries.drop (room - lost.length)
       ∧ (0 < room → 0 < u.lostCount → (u.transfer now).lostCount = 0 ∧ (u.transfer now).kindsLost = 0#16)
       ∧ (room = 0 ∨ u.lostCount = 0 →
           (u.transfer now).lostCount = u.lostCount ∧ (u.transfer now).kindsLost = u.kindsLost)
       ∧ (u.transfer now).window = u.window ∧ (u.transfer now).nextSeq = u.nextSeq ∧ (u.transfer now).resend = u.resend)

/-- R176, R177: which unsent report a report is folded into, and what folding makes of it: a CONDITION into the second of its
station, a MAIL_WAITING, MAIL_DROPPED or LINK_FAULT into the one of its key; the other kinds are not coalesced. A report handed
over that is not coalesced is judged by the full test. So the queue never holds more than two unsent CONDITION reports of a
station, nor more than one report of another key: handing over and the transfer keep that, and merging gives it. -/
def Obligations.UnsentReportsCoalesce : Prop :=
  (∀ a acc rep sk cy q, q.countP (Report.isConditionOf a) ≤ 1 → coalesce q (.condition a acc rep sk cy) = none)
    ∧ (∀ A B C a acc₁ rep₁ sk₁ cy₁ acc₂ rep₂ sk₂ cy₂ acc rep sk cy,
        A.countP (Report.isConditionOf a) = 0 → B.countP (Report.isConditionOf a) = 0 →
        coalesce (A ++ .condition a acc₁ rep₁ sk₁ cy₁ :: B ++ .condition a acc₂ rep₂ sk₂ cy₂ :: C)
            (.condition a acc rep sk cy)
          = some (A ++ .condition a acc₁ rep₁ sk₁ cy₁ :: B ++ .condition a acc rep₂ (min 255 (sk₂ + (1 + sk))) cy :: C))
    ∧ (∀ q m src p len st, q.countP (Report.isMailWaitingOf m) = 0 → coalesce q (.mailWaiting m src p len st) = none)
    ∧ (∀ q m src p len st, 0 < q.countP (Report.isMailWaitingOf m) →
        coalesce q (.mailWaiting m src p len st) = some q)
    ∧ (∀ q m full nob src p cy, q.countP (Report.isMailDroppedOf m) = 0 →
        coalesce q (.mailDropped m full nob src p cy) = none)
    ∧ (∀ A C m full nob src p cy full₁ nob₁ src₁ p₁ cy₁, A.countP (Report.isMailDroppedOf m) = 0 →
        coalesce (A ++ .mailDropped m full₁ nob₁ src₁ p₁ cy₁ :: C) (.mailDropped m full nob src p cy)
          = some
            (A ++ .mailDropped m (min 65535 (full₁ + full)) (min 65535 (nob₁ + nob)) src₁ p₁ cy₁ :: C))
    ∧ (∀ q k, q.countP Report.isLinkFault = 0 → coalesce q (.linkFault k) = none)
    ∧ (∀ A C (k₁ k : LinkFaultCounts), A.countP Report.isLinkFault = 0 →
        coalesce (A ++ .linkFault k₁ :: C) (.linkFault k)
          = some
            (A ++ .linkFault
              { check := min 65535 (k₁.check + k.check), length := min 65535 (k₁.length + k.length)
                cutShort := min 65535 (k₁.cutShort + k.cutShort), escape := min 65535 (k₁.escape + k.escape)
                framing := min 65535 (k₁.framing + k.framing), overrun := min 65535 (k₁.overrun + k.overrun)
                total := k.total } :: C))
    ∧ (∀ q r, (∀ a acc rep sk cy, r ≠ .condition a acc rep sk cy) → (∀ m src p len st, r ≠ .mailWaiting m src p len st) →
        (∀ m full nob src p cy, r ≠ .mailDropped m full nob src p cy) → (∀ k, r ≠ .linkFault k) → coalesce q r = none)
    ∧ (∀ (u : ReportUnit) (r : Report),
        (∀ q, coalesce u.queue r = some q → u.handOver r = { u with queue := q })
        ∧ (coalesce u.queue r = none → u.queue.length + u.window.length < 64 →
          u.handOver r = { u with queue := u.queue ++ [r] })
        ∧ (coalesce u.queue r = none → 64 ≤ u.queue.length + u.window.length → (u.handOver r).queue = u.queue))
    ∧ (let sparse := fun (q : List Report) =>
        (∀ a, q.countP (Report.isConditionOf a) ≤ 2) ∧ (∀ m, q.countP (Report.isMailWaitingOf m) ≤ 1)
          ∧ (∀ m, q.countP (Report.isMailDroppedOf m) ≤ 1) ∧ q.countP Report.isLinkFault ≤ 1
       (∀ (u : ReportUnit) (r : Report), sparse u.queue → sparse (u.handOver r).queue)
       ∧ (∀ (u : ReportUnit) (now : BitVec 16), sparse u.queue → sparse (u.transfer now).queue)
       ∧ ∀ rs : List Report, sparse (rs.foldl (fun acc r => (coalesce acc r).getD (acc ++ [r])) []))

/-- R183, R184, R185: REPORT.ACK removes the named report and those before it and the transfer runs; a number that names none
is BAD_ARG with the report status; REPORT.RESEND lists the whole window. The model's readings it rests on: taking a request
(log entry 2). -/
def Obligations.ReportsAcknowledgedAndResent : Prop :=
  ∀ (s : State) (tag : Octet),
    (∀ (n : Octet) (A B : List SentReport) (r : SentReport), CanTake s ⟨0x19#8, tag, [n]⟩ →
      s.rep.window = A ++ r :: B → r.seq = n → (∀ x ∈ A, x.seq ≠ n) →
      let u : State :=
        { s with
          rep := ReportUnit.transfer s.now
            { s.rep with
              window := B, resend := s.rep.resend.filter fun x => decide (x.seq ∉ (A ++ [r]).map (·.seq)) } }
      Gives (.reportAck tag [n]) s
        (u.replied 0x99#8 tag ([0x00#8, BitVec.ofNat 8 (A.length + 1)] ++ u.reportStatus)))
    ∧ (∀ n : Octet, CanTake s ⟨0x19#8, tag, [n]⟩ → (∀ x ∈ s.rep.window, x.seq ≠ n) →
      Gives (.reportAck tag [n]) s (s.replied 0x99#8 tag (0x01#8 :: s.reportStatus)))
    ∧ (CanTake s ⟨0x1A#8, tag, []⟩ →
      let u : State := { s with rep := { s.rep with resend := s.rep.window } }
      Gives (.reportResend tag []) s
        (u.replied 0x9A#8 tag ([0x00#8, BitVec.ofNat 8 s.rep.window.length] ++ u.reportStatus)))
    ∧ s.reportStatus =
      [BitVec.ofNat 8 s.rep.queue.length, BitVec.ofNat 8 s.rep.window.length,
        ((s.rep.window.head?).map (·.seq)).getD 0xFF#8, s.rep.nextSeq, BitVec.ofNat 8 s.rep.resend.length,
        BitVec.ofNat 8 s.placesHeld, BitVec.ofNat 8 s.rep.entries.length, BitVec.ofNat 8 (s.rep.lostCount / 256),
        BitVec.ofNat 8 s.rep.lostCount]

/-! ## The line (chapter 1) -/

/-- R7: LINE.START in STOPPED and FAULTED starts cycle 0 with the counts cleared; in STARTING and RUNNING it is BAD_STATE. It
is taken when R164 lets it (with the model's reading of an empty intake, log entry 2). That the call record is among what keeps
its value is the model's choice and no part of R7 (log entry 27). The model's readings it rests on too: the flag of a cycle in
progress (log entry 3) and the driven octets (log entry 4). -/
def Obligations.LineStarts : Prop :=
  ∀ (s : State) (tag : Octet), CanTake s ⟨0x01#8, tag, []⟩ →
    (s.line.state = .stopped ∨ s.line.state = .faulted →
      Gives (.lineStart tag []) s
        (({ s with
            line :=
              { s.line with
                state := .starting, startCount := 0, mismatchCount := 0, quietCount := 0, quietReported := false
                faultReason := none, cycleCounter := 0#16, cycleOpen := true, driven := quietCycle }
            rep := s.rep.handOver (.lineState .starting s.line.state .request 0#16) } : State).replied
          0x81#8 tag [0x00#8]))
    ∧ (s.line.state = .starting ∨ s.line.state = .running →
      Gives (.lineStart tag []) s (s.replied 0x81#8 tag [0x02#8]))

/-- R9, R13: LINE.STOP is taken in every line state: nothing changes in STOPPED; in the others the line goes STOPPED and the
cycle in progress is cut off; LINE_STATE is handed over first, and from RUNNING the line-down effects follow, with their
reports and completions in their order (log entry 14). That the stopped line's sample holds no owner is the model's choice
(entry 5); the cleared flag of a cycle in progress (entry 3), the octets of the undriven pair (entry 4), the taking of the
request (entry 2) and a circuit's collecting flag (entry 6) are its readings. The premises on RUNNING are invariants of the
part, stated below. -/
def Obligations.LineStops : Prop :=
  ∀ (s : State) (tag : Octet), CanTake s ⟨0x02#8, tag, []⟩ →
    let stopped : LineEngine :=
      { s.line with
        state := .stopped, faultReason := none, cycleOpen := false, driven := List.replicate 48 0xFF#8
        sampleDown := List.replicate 43 none, sampleUp := List.replicate 43 none }
    let report : Report := .lineState .stopped s.line.state .request s.line.cycleCounter
    (s.line.state = .stopped → Gives (.lineStop tag []) s (s.replied 0x82#8 tag [0x00#8]))
    ∧ (s.line.state = .starting ∨ s.line.state = .faulted →
      Gives (.lineStop tag []) s
        (({ s with line := stopped, rep := s.rep.handOver report } : State).replied 0x82#8 tag [0x00#8]))
    ∧ (s.line.state = .running → Shape s → LiveHandles s → WindowSound s →
      ∃ u : State, Gives (.lineStop tag []) s (u.replied 0x82#8 tag [0x00#8]) ∧ u.line = stopped ∧ LineDown s u
        ∧ Apart s u ∧ u.rep = s.lineDownReports (s.rep.handOver report))

/-- R14, R116: the given settings are checked for range, then for the room the transmit queues leave, and take their values
together; an absent one keeps its value. The model's readings it rests on: taking a request (log entry 2). -/
def Obligations.LineSettingsSet : Prop :=
  ∀ (s : State) (tag mask m w p q r : Octet), CanTake s ⟨0x03#8, tag, [mask, m, w, p, q, r]⟩ →
    let given := fun (i : Nat) => mask.getLsbD i
    let ok := mask.toNat < 32
      ∧ (given 0 = true → 1 ≤ m.toNat ∧ m.toNat ≤ 15) ∧ (given 1 = true → 8 ≤ w.toNat)
      ∧ (given 2 = true → p.toNat = 0 ∨ 4 ≤ p.toNat) ∧ (given 3 = true → 8 ≤ q.toNat)
      ∧ (given 4 = true → r.toNat ≤ 128)
    let new : LineSettings :=
      { missLimit := if given 0 = true then m.toNat else s.line.settings.missLimit
        windowLimit := if given 1 = true then w.toNat else s.line.settings.windowLimit
        probeInterval := if given 2 = true then p.toNat else s.line.settings.probeInterval
        quietLimit := if given 3 = true then q.toNat else s.line.settings.quietLimit
        receiveReserve := if given 4 = true then r.toNat else s.line.settings.receiveReserve }
    (¬ok → Gives (.lineSet tag [mask, m, w, p, q, r]) s (s.replied 0x83#8 tag [0x01#8]))
    ∧ (ok → given 4 = true ∧ 256 - r.toNat < s.txHeld →
      Gives (.lineSet tag [mask, m, w, p, q, r]) s
        (s.replied 0x83#8 tag [0x07#8, BitVec.ofNat 8 (s.txHeld / 256), BitVec.ofNat 8 s.txHeld]))
    ∧ (ok → ¬(given 4 = true ∧ 256 - r.toNat < s.txHeld) →
      Gives (.lineSet tag [mask, m, w, p, q, r]) s
        (({ s with line := { s.line with settings := new } } : State).replied 0x83#8 tag
          [0x00#8, BitVec.ofNat 8 new.missLimit, BitVec.ofNat 8 new.windowLimit, BitVec.ofNat 8 new.probeInterval,
            BitVec.ofNat 8 new.quietLimit, BitVec.ofNat 8 new.receiveReserve]))

/-- R20, R88, R106, R117, R138, R156, R173: STATS, SLOT.MAP and LANE.READ change no state; each reply carries the figures of
its layout (11.5), octet by octet, as they stand with the request's own frame gone from the intake. The model's own: octets
taken read absent in IDLE (log entry 20), a field of the packet in progress that has not come yet reads absent (entry 28),
slots in a list ascend (entry 12), circuits ascend by number (entry 26). The model's readings it rests on too: taking a request
(log entry 2). -/
def Obligations.ReadsChangeNothing : Prop :=
  ∀ (s : State) (tag : Octet),
    let one := fun (n : Nat) => BitVec.ofNat 8 n
    let two := fun (n : Nat) => [BitVec.ofNat 8 (n / 256), BitVec.ofNat 8 n]
    let four := fun (n : Nat) =>
      [BitVec.ofNat 8 (n / 16777216), BitVec.ofNat 8 (n / 65536), BitVec.ofNat 8 (n / 256), BitVec.ofNat 8 n]
    let bit := fun (b : Bool) => if b then 0x01#8 else 0x00#8
    let opt := fun (x : Option Nat) => (x.map (BitVec.ofNat 8)).getD 0xFF#8
    let list := fun (l : List Nat) => BitVec.ofNat 8 l.length :: l.map (BitVec.ofNat 8)
    let blocks := fun (n : Nat) => max 1 ((n + 31) / 32)
    let laneBlocks := fun (x : Lane) => (x.queue.map fun p => blocks p.declared).sum
    let boxBlocks := fun (m : Mailbox) => (m.records.map fun r => blocks r.length).sum
    let owner := fun (o : Owner) => match o with
      | .lane k => BitVec.ofNat 8 (0x10 + k) | .circuit k => BitVec.ofNat 8 (0x20 + k)
    (CanTake s ⟨0x04#8, tag, []⟩ →
      let e := s.line
      let r := s.rx.record
      let line : List Octet :=
        [match e.state with | .stopped => 0#8 | .starting => 1#8 | .running => 2#8 | .faulted => 3#8,
          match e.faultReason with
            | none => 0xFF#8 | some .request => 0#8 | some .readback => 1#8 | some .runningReached => 2#8,
          one e.startCount]
          ++ two e.cycleCounter.toNat ++ four e.cycleTotal.toNat
          ++ [one e.mismatchCount, one e.quietCount, bit e.quietReported, one e.settings.missLimit,
            one e.settings.windowLimit, one e.settings.probeInterval, one e.settings.quietLimit,
            one e.settings.receiveReserve]
      let pool : List Octet :=
        two s.free ++ two (s.lanes.map laneBlocks).sum ++ s.lanes.flatMap (fun x => two (laneBlocks x))
          ++ two (s.mailboxes.map boxBlocks).sum ++ s.mailboxes.map (fun m => one (boxBlocks m))
          ++ [if s.rx.state = .body ∨ s.rx.state = .check then one (blocks (r.length.getD 0)) else 0x00#8]
      let window : List Octet :=
        two s.window.bidCollisions ++ two s.window.ignoredBids
          ++ (match s.window.window with
            | none => [0x00#8, 0xFF#8, 0xFF#8, 0x00#8, 0x00#8, 0x00#8, 0x00#8]
            | some w => [0x01#8, one w.owner, one w.lane] ++ list w.upSet
              ++ [one w.cyclesUsed, bit w.packetStarted, one w.idleRun])
          ++ list s.window.queue
      let receiver : List Octet :=
        [s.rx.stored, s.rx.badCheck, s.rx.foreign, s.rx.long, s.rx.unclaimed, s.rx.cutShort].flatMap two
          ++ [match s.rx.state with | .idle => 0#8 | .header => 1#8 | .body => 2#8 | .check => 3#8 | .drain => 4#8,
            r.port.getD 0xFF#8, r.station.getD 0xFF#8]
          ++ (match r.length with | none => [0xFF#8, 0xFF#8] | some n => two n)
          ++ (if s.rx.state = .idle then [0xFF#8, 0xFF#8] else two r.taken)
          ++ [opt r.mailbox,
            match r.matchKind with
              | none => 0xFF#8 | some .a => 0#8 | some .b => 1#8 | some .masked => 2#8 | some .general => 3#8
              | some .all => 4#8]
          ++ s.mailboxes.flatMap fun m => one m.records.length :: two m.dropped
      let link : List Octet :=
        [one s.link.rate] ++ two s.link.faultCount ++ [one (s.link.intake.length - 1), one s.link.replies.length]
      Gives (.stats tag []) s (s.replied 0x84#8 tag ([0x00#8] ++ line ++ pool ++ window ++ receiver ++ link)))
    ∧ (CanTake s ⟨0x10#8, tag, []⟩ →
      let entries : List (Option MapEntry) → List Octet := fun l => l.flatMap fun e => match e with
        | none => [0x00#8, 0xFF#8] | some e => [owner e.owner, one e.prec]
      let waiting : List Octet := one s.slots.reclaim.length :: s.slots.reclaim.flatMap fun e =>
        [owner e.owner, one (e.slot + (match e.dir with | .down => 0 | .up => 128)), one e.prec]
      let open_ : List (Nat × Circuit) := (List.range 12).filterMap fun n => (s.circuit n).map fun c => (n, c)
      let circuits : List Octet := one open_.length :: open_.flatMap fun x =>
        [one x.1, one x.2.source, one x.2.up.length, one x.2.prec,
          match x.2.state with | .live => 0#8 | .muted => 1#8 | .displaced => 2#8 | .closed => 3#8]
          ++ x.2.up.map one ++ x.2.down.map one
      Gives (.slotMap tag []) s
        (s.replied 0x90#8 tag
          ([0x00#8] ++ entries s.slots.down ++ entries s.slots.up ++ waiting
            ++ s.lanes.flatMap (fun l => [one l.prec, bit l.cutThrough]) ++ circuits)))
    ∧ (∀ l : Octet, CanTake s ⟨0x15#8, tag, [l]⟩ →
      let x := s.lane l.toNat
      let held := fun (d : Dir) => (List.range' 5 43).filter fun y =>
        (s.mapEntry d y).any fun e => decide (e.owner = .lane l.toNat)
      let packet := fun (p : Packet) =>
        two p.handle ++ [one p.destination, p.port] ++ two p.declared ++ two p.body.length ++ two p.position
          ++ [match p.state with | .filling => 0#8 | .ready => 1#8 | .sending => 2#8 | .aborting => 3#8,
            match p.abortReason with
              | none => 0xFF#8 | some .cancel => 0#8 | some .laneReset => 1#8 | some .underrun => 2#8
              | some .slotsLost => 3#8 | some .lineStopped => 4#8]
      (l.toNat < 4 → Gives (.laneRead tag [l]) s
        (s.replied 0x95#8 tag
          ([0x00#8, match x.engine with | .idle => 0#8 | .sending => 1#8 | .aborting => 2#8 | .gap => 3#8]
            ++ list x.activeSet ++ [one x.gapCount, bit x.cutThrough, one x.prec] ++ list (held .down)
            ++ list (held .up) ++ two (laneBlocks x) ++ (one x.queue.length :: x.queue.flatMap packet))))
      ∧ (4 ≤ l.toNat → Gives (.laneRead tag [l]) s (s.replied 0x95#8 tag [0x01#8])))

/-- R8, R11: a STARTING cycle advances the counter and carries the quiet header, and the call record is kept (the model's
choice, log entry 27); no cycle starts while one is in progress, while the line is STOPPED or FAULTED, or while the RESET pin
is low (the model's reading of R1, log entry 3). R1: a slot carries its octet most significant bit first, and reading those
bits gives the octet back; the marker goes out with the first bit of slot 0 of a cycle and with no other; while no cycle runs
the down pair carries ones and no marker; 4000 cycles of 384 bits in a second at 1,536,000 bit/s. The model's readings it rests
on too: the driven octets (log entry 4), the rows that name a special case (log entry 7) and a command that is no event (log
entry 11). -/
def Obligations.StartingCycleStarts : Prop :=
  ∀ s : State,
    (s.pin = .high → s.line.cycleOpen = false → s.line.state = .starting → s.line.startCount < 16 →
      Gives .cycleStart s
        { s with
          line :=
            { s.line with
              cycleCounter := s.line.cycleCounter + 1, cycleOpen := true, driven := quietCycle } })
    ∧ (s.pin ≠ .high ∨ s.line.cycleOpen = true ∨ s.line.state = .stopped ∨ s.line.state = .faulted →
      exec .cycleStart s = .next s ∧ exec .runningReached s = .next s ∧ exec .windowOverrun s = .next s
        ∧ ∀ l, exec (.gapEnd l) s = .next s)
    ∧ (∀ o : Octet,
      let bits := [o.getLsbD 7, o.getLsbD 6, o.getLsbD 5, o.getLsbD 4, o.getLsbD 3, o.getLsbD 2, o.getLsbD 1, o.getLsbD 0]
      slotBits o = bits ∧ octetOfSlotBits bits = o)
    ∧ (s.pin = .high → s.line.cycleOpen = true → s.line.state = .starting ∨ s.line.state = .running →
      (∀ n b o, s.line.driven[n]? = some o → b < 8 → s.downBit n b = o.getLsbD (7 - b))
      ∧ ∀ n b, s.downMarker n b = true ↔ n = 0 ∧ b = 0)
    ∧ (s.pin ≠ .high ∨ s.line.cycleOpen = false ∨ s.line.state = .stopped ∨ s.line.state = .faulted →
      ∀ n b, s.downBit n b = true ∧ s.downMarker n b = false)
    ∧ (Config.lineRate, Config.slotWidth, Config.cycleBits, Config.cyclesPerSecond) = (1536000, 8, 384, 4000)

/-- R8, R11, R18, R83: the cycle start after the sixteenth completed STARTING cycle makes the line RUNNING, reports it first,
and mutes the LIVE circuits without an ONLINE source, ascending; then it is the cycle start of the RUNNING line. LINE_STATE
carries the new cycle's number (log entry 15). RUNNING_REACHED is that event (log entry 7) and does nothing elsewhere. The
model's readings it rests on too: the flag of a cycle in progress (log entry 3), the collecting flag of a circuit (log entry 6)
and a command that is no event (log entry 11). -/
def Obligations.SixteenthCycleReachesRunning : Prop :=
  ∀ s : State,
    (∀ c : Instr, c = .cycleStart ∨ c = .runningReached → s.pin = .high → s.line.cycleOpen = false →
      s.line.state = .starting → 16 ≤ s.line.startCount → Shape s →
      let running : State :=
        { s with
          line := { s.line with state := .running }
          circuits := s.circuits.map (Option.map fun k =>
            if k.state = .live ∧ (s.station k.source).state ≠ .online then { k.emptied with state := .muted } else k)
          rep :=
            (Report.lineState .running .starting .runningReached (s.line.cycleCounter + 1)
              :: (List.range 12).filterMap fun n => (s.circuit n).bind fun k =>
                if k.state = .live ∧ (s.station k.source).state ≠ .online then
                  some (.circuitState n k.source .muted .live .sourceLeft none (s.line.cycleCounter + 1))
                else none).foldl ReportUnit.handOver s.rep }
      exec c s = exec .cycleStart running ∧ ∃ u : State, Gives c s u)
    ∧ (¬(s.line.state = .starting ∧ 16 ≤ s.line.startCount) → exec .runningReached s = .next s)

/-- R3, R23, R24, R25, R52, R188: the call of a RUNNING cycle and what goes out in slots 0 and 1: a probe of the next FREE
address in a probe cycle, else a ring poll of the next ring member, else address 0; note octets to an ONLINE station only. The
commands are those of a cycle start (log entry 7). The model's readings it rests on too: the flag of a cycle in progress (log
entry 3) and the driven octets (log entry 4). -/
def Obligations.RunningCycleCalls : Prop :=
  ∀ (s : State) (c : Instr), s.pin = .high → s.line.cycleOpen = false → s.line.state = .running → Shape s →
    StartsCycle c s →
    ∃ u : State, Gives c s u
      ∧ (let now := (s.line.cycleCounter + 1).toNat
         let free := fun a => (s.station a).state = .free
         let ring := fun a => (s.station a).state ≠ .free ∧ (s.station a).state ≠ .barred
         let probes := s.line.settings.probeInterval ≠ 0 ∧ now % s.line.settings.probeInterval = 0
         (probes → (∃ a, 1 ≤ a ∧ a ≤ 30 ∧ free a) →
            ∃ a, NextAfter free s.poll.probePointer a ∧ u.poll.call = .probe a ∧ u.poll.probePointer = a
              ∧ u.poll.pollPointer = s.poll.pollPointer)
         ∧ (¬(probes ∧ ∃ a, 1 ≤ a ∧ a ≤ 30 ∧ free a) → (∃ a, 1 ≤ a ∧ a ≤ 30 ∧ ring a) →
            ∃ a, NextAfter ring s.poll.pollPointer a ∧ u.poll.call = .ring a ∧ u.poll.pollPointer = a
              ∧ u.poll.probePointer = s.poll.probePointer)
         ∧ (¬(probes ∧ ∃ a, 1 ≤ a ∧ a ≤ 30 ∧ free a) → (∀ a, 1 ≤ a → a ≤ 30 → ¬ring a) →
            u.poll.call = .none ∧ u.poll.pollPointer = s.poll.pollPointer
              ∧ u.poll.probePointer = s.poll.probePointer))
      ∧ (∃ call note : Octet,
          u.line.driven =
              [call, note, 0xFF#8, 0xFF#8, BitVec.ofNat 8 (8 * (u.window.window.map (·.owner)).getD 0)]
                ++ List.replicate 43 0xFF#8
          ∧ (u.poll.call = .none →
              call = 0x00#8 ∧ note = 0xFF#8 ∧ u.notes = { s.notes with callOut := none })
          ∧ (∀ a, u.poll.call = .probe a →
              call = BitVec.ofNat 8 (8 * a) ∧ note = 0xFF#8 ∧ u.notes = { s.notes with callOut := none })
          ∧ (∀ a, u.poll.call = .ring a →
              let t := s.station a
              let bit := fun (b : Bool) => if b then 1 else 0
              (t.state ≠ .online → call = BitVec.ofNat 8 (8 * a + bit t.noteToggle) ∧ note = 0xFF#8
                ∧ u.notes = { s.notes with callOut := none })
              ∧ (t.state = .online → t.abortPending = true →
                call = BitVec.ofNat 8 (8 * a + 6 + bit t.noteToggle) ∧ note = 0xFF#8
                  ∧ u.notes =
                    { s.notes with
                      callOut := some { station := a, mark := .abort, toggle := t.noteToggle, note := none } })
              ∧ (t.state = .online → t.abortPending = false → (∀ n ∈ s.notes.store, n.station ≠ a) →
                call = BitVec.ofNat 8 (8 * a + bit t.noteToggle) ∧ note = 0xFF#8
                  ∧ u.notes =
                    { s.notes with
                      callOut := some { station := a, mark := .none, toggle := t.noteToggle, note := none } })
              ∧ (∀ A n B, t.state = .online → t.abortPending = false → s.notes.store = A ++ n :: B → n.station = a →
                (∀ m ∈ A, m.station ≠ a) → n.nextIndex < n.octets.length →
                (s.notes.store.map (·.handle)).Nodup →
                let last := decide (n.nextIndex + 1 = n.octets.length)
                call = BitVec.ofNat 8 (8 * a + (if last then 4 else 2) + bit (!t.noteToggle))
                  ∧ some note = n.octets[n.nextIndex]?
                  ∧ u.notes =
                    { s.notes with
                      store := A ++ { n with state := .inFlight } :: B
                      callOut := some
                        { station := a, mark := if last then .endMark else .more, toggle := !t.noteToggle
                          note := some (n.handle, n.nextIndex) } }
                  ∧ (n.state = .queued → (u.station a).busyRun = 0 ∧ (u.station a).unackedPolls = 0)
                  ∧ (n.state = .inFlight → (u.station a).busyRun = t.busyRun ∧ (u.station a).unackedPolls = t.unackedPolls))))
      ∧ (∀ b, u.station b =
          { s.station b with
            busyRun := (u.station b).busyRun, unackedPolls := (u.station b).unackedPolls
            windowsGranted := (u.station b).windowsGranted })
      ∧ ((s.notes.store.map (·.handle)).Nodup → ∀ b,
          (u.poll.call = .ring b → (s.station b).state ≠ .online ∨ (s.station b).abortPending = true
            ∨ ∀ n ∈ s.notes.store, n.station = b → n.state ≠ .queued) →
          (u.station b).busyRun = (s.station b).busyRun ∧ (u.station b).unackedPolls = (s.station b).unackedPolls)

/-- R96, R98: at a RUNNING cycle start the window limit comes first, then the grant: the first queued station whose lane holds
an up slot. The commands are those of a cycle start; WINDOW_OVERRUN does nothing below the limit (log entry 7). The model's
readings it rests on too: the flag of a cycle in progress (log entry 3) and a command that is no event (log entry 11). -/
def Obligations.RunningCycleGrants : Prop :=
  ∀ (s : State) (c : Instr), s.pin = .high → s.line.cycleOpen = false → s.line.state = .running → Shape s →
    StartsCycle c s →
    let upHeld := fun (a : Nat) => s.held (.lane (s.station a).lane) .up
    let granted := fun (u : State) =>
      (∀ A a B, s.window.queue = A ++ a :: B → (∀ b ∈ A, upHeld b = []) → upHeld a ≠ [] →
        u.window =
            { s.window with
              window := some
                { owner := a, lane := (s.station a).lane, upSet := upHeld a, cyclesUsed := 1, packetStarted := false
                  idleRun := 0 }
              queue := A ++ B }
          ∧ (1 ≤ a → a ≤ 30 → (u.station a).windowsGranted = min 65535 ((s.station a).windowsGranted + 1))
          ∧ ∀ b, b ≠ a → (u.station b).windowsGranted = (s.station b).windowsGranted)
      ∧ ((∀ a ∈ s.window.queue, upHeld a = []) → u.window = { s.window with window := none }
          ∧ ∀ b, (u.station b).windowsGranted = (s.station b).windowsGranted)
    (s.window.window = none →
      ∃ u : State, Gives c s u ∧ granted u ∧ u.rx = s.rx ∧ u.free = s.free ∧ u.rep = s.rep)
    ∧ (∀ w, s.window.window = some w → w.cyclesUsed < s.line.settings.windowLimit →
        exec .windowOverrun s = .next s
        ∧ ∃ u : State, Gives c s u
          ∧ u.window = { s.window with window := some { w with cyclesUsed := w.cyclesUsed + 1 } }
          ∧ (∀ b, (u.station b).windowsGranted = (s.station b).windowsGranted)
          ∧ u.rx = s.rx ∧ u.free = s.free ∧ u.rep = s.rep)
    ∧ (∀ w, s.window.window = some w → s.line.settings.windowLimit ≤ w.cyclesUsed →
        ∃ u : State, Gives c s u ∧ granted u ∧ u.rx = s.rx.discarded ∧ u.free = s.free + s.rx.held
          ∧ u.rep = s.rep.handOver
            (.rxFault
              { fault := .overrun, owner := w.owner, lane := w.lane, port := s.rx.record.port
                length := s.rx.record.length, cyclesUsed := w.cyclesUsed, slotLost := none, stationField := none
                checks := none, cycle := s.line.cycleCounter + 1 }))

/-- R4, R11, R81, R125, R128: at a RUNNING cycle start the map is sampled, a LIVE circuit sends what it collected, an engine in
GAP with gap count 2 becomes IDLE, and an IDLE engine starts an eligible head. The commands are those of a cycle start:
CYCLE_START, and GAP_END and WINDOW_OVERRUN in their case (log entry 7). The model's readings it rests on too: the flag of a
cycle in progress (log entry 3), the collecting flag of a circuit (log entry 6) and the gap count after a GAP (log entry 16).
-/
def Obligations.RunningCycleStartsPackets : Prop :=
  ∀ s : State, s.pin = .high → s.line.cycleOpen = false → s.line.state = .running →
    ∀ c : Instr, StartsCycle c s →
      ∃ u : State, Gives c s u ∧ Apart s u
        ∧ u.line =
          { s.line with
            cycleCounter := s.line.cycleCounter + 1, cycleTotal := s.line.cycleTotal + 1, cycleOpen := true
            driven := u.line.driven, sampleDown := s.slots.down.map (Option.map (·.owner))
            sampleUp := s.slots.up.map (Option.map (·.owner)) }
        ∧ u.slots = s.slots ∧ u.mailboxes = s.mailboxes
        ∧ (∀ n, u.circuit n = (s.circuit n).map fun k =>
            if k.state = .live then
              { k with outgoing := k.incoming, incoming := List.replicate k.up.length none, collects := true }
            else k.emptied)
        ∧ ∀ l,
          let x := s.lane l
          let held := s.held (.lane l) .down
          let y := if x.engine = .gap then { x with engine := .idle, activeSet := [], gapCount := 0 } else x
          (x.engine = .sending ∨ x.engine = .aborting ∨ (x.engine = .gap ∧ x.gapCount < 2) → u.lane l = x)
          ∧ (x.engine = .idle ∨ (x.engine = .gap ∧ 2 ≤ x.gapCount) →
            (∀ p rest, x.queue = p :: rest → held ≠ [] →
              (p.state = .ready ∨ (p.state = .filling ∧ x.cutThrough = true ∧ p.body ≠ [])) →
              u.lane l =
                { y with
                  engine := .sending, activeSet := held, runningCheck := 0xFFFF#16
                  queue := { p with state := .sending, position := 0 } :: rest })
            ∧ ((x.queue = [] ∨ held = []
                ∨ ∃ p, x.queue.head? = some p
                  ∧ ¬(p.state = .ready ∨ (p.state = .filling ∧ x.cutThrough = true ∧ p.body ≠ []))) →
              u.lane l = y))

/-- R8, R12, R13: the verdict of a cycle: a match sets the mismatch count to 0, a mismatch raises it, and at 8 the line goes
FAULTED, with LINE_STATE first and the line-down effects when it was RUNNING, their reports and completions in their order (log
entry 14); a completed STARTING cycle that does not fault is counted. READBACK_FAULT is the same event where the count reaches
8 (entry 7). A verdict while no cycle is in progress, and READBACK_FAULT where the count does not reach 8, are no events and
change nothing (entry 11). That the faulted line's sample holds no owner is the model's choice (entry 5); the flag of a cycle
in progress (entry 3), the driven octets and what is read back (entry 4) and a circuit's collecting flag (entry 6) are its
readings. -/
def Obligations.CycleVerdict : Prop :=
  ∀ (s : State) (marker : Bool) (readback : List (Nat × Octet)),
    let matched := marker = true ∧ ∀ p ∈ readback, s.line.driven[p.1]? = some p.2
    let count := if s.line.state = .starting then s.line.startCount + 1 else s.line.startCount
    let faulted : LineEngine :=
      { s.line with
        state := .faulted, faultReason := some .readback, mismatchCount := s.line.mismatchCount + 1, cycleOpen := false
        driven := List.replicate 48 0xFF#8, sampleDown := List.replicate 43 none, sampleUp := List.replicate 43 none }
    (¬(s.pin = .high ∧ s.line.cycleOpen = true ∧ (s.line.state = .starting ∨ s.line.state = .running)) →
      exec (.cycleEnd marker readback) s = .next s ∧ exec (.readbackFault marker readback) s = .next s)
    ∧ (s.pin = .high → s.line.cycleOpen = true → s.line.state = .starting ∨ s.line.state = .running →
      (matched → Gives (.cycleEnd marker readback) s
        { s with line := { s.line with mismatchCount := 0, cycleOpen := false, startCount := count } })
      ∧ (¬matched → s.line.mismatchCount + 1 < 8 → Gives (.cycleEnd marker readback) s
        { s with
          line := { s.line with mismatchCount := s.line.mismatchCount + 1, cycleOpen := false, startCount := count } })
      ∧ (matched ∨ s.line.mismatchCount + 1 < 8 → exec (.readbackFault marker readback) s = .next s)
      ∧ ∀ c : Instr, c = .cycleEnd marker readback ∨ c = .readbackFault marker readback →
        ¬matched → 8 ≤ s.line.mismatchCount + 1 →
        (s.line.state = .starting → Gives c s
          { s with
            line := faulted, rep := s.rep.handOver (.lineState .faulted .starting .readback s.line.cycleCounter) })
        ∧ (s.line.state = .running → Shape s → LiveHandles s → WindowSound s →
          ∃ u : State, Gives c s u ∧ u.line = faulted ∧ LineDown s u ∧ Apart s u
            ∧ u.rep = s.lineDownReports
              (s.rep.handOver (.lineState .faulted .running .readback s.line.cycleCounter))))

/-! ## Stations (chapter 2) -/

/-- R41: STATION.ENROL makes a FREE address OFFLINE on the given lane with its fields cleared; in any other state it is
BAD_STATE, and an address outside 1 to 30 or a lane outside 0 to 3 is BAD_ARG. The model's readings it rests on: taking a
request (log entry 2). -/
def Obligations.EnrolMakesOffline : Prop :=
  ∀ (s : State) (tag a l : Octet), CanTake s ⟨0x05#8, tag, [a, l]⟩ →
    let inRange := (1 ≤ a.toNat ∧ a.toNat ≤ 30) ∧ l.toNat ≤ 3
    (¬inRange → Gives (.stationEnrol tag [a, l]) s (s.replied 0x85#8 tag [0x01#8]))
    ∧ (inRange → (s.station a.toNat).state ≠ .free →
      Gives (.stationEnrol tag [a, l]) s (s.replied 0x85#8 tag [0x02#8]))
    ∧ (inRange → (s.station a.toNat).state = .free →
      Gives (.stationEnrol tag [a, l]) s
        ((s.modStation a.toNat fun _ =>
            { state := .offline, lane := l.toNat, accepted := none, candidate := none, missCount := 0
              noteToggle := false, abortPending := false, busyRun := 0, unackedPolls := 0, heard := false
              missesTotal := 0, malformedAnswers := 0, badCheckPackets := 0, windowsGranted := 0 }).replied
          0x85#8 tag [0x00#8]))

/-- R42, R43, R34, R36, R58, R61, R83: STATION.WITHDRAW and STATION.BAR: their refusals, and their effect on the entry, with
the departure from ONLINE, its reports and completions in their order (log entry 14), when the station was ONLINE, and with the
failure of its notes alone when it was not. The model's readings it rests on too: taking a request (log entry 2) and the
collecting flag of a circuit (log entry 6). -/
def Obligations.WithdrawAndBarRemoveStation : Prop :=
  ∀ (s : State) (tag a : Octet), Shape s → LiveHandles s →
    let t := s.station a.toNat
    let inRange := 1 ≤ a.toNat ∧ a.toNat ≤ 30
    let source := ∃ n c, n < 12 ∧ s.circuit n = some c ∧ c.source = a.toNat
    let gone := fun (new : StationState) (reason : StationReason) (u : State) =>
      (t.state = .online → Departure s u a.toNat ∧ u.rep = s.departureReports a.toNat new reason)
      ∧ (t.state ≠ .online → (∀ b, b ≠ a.toNat → u.station b = s.station b)
        ∧ u.poll = { s.poll with stations := u.poll.stations }
        ∧ u.notes = { s.notes with store := s.notes.store.filter fun n => decide (n.station ≠ a.toNat) }
        ∧ u.window = s.window ∧ u.rx = s.rx ∧ u.circuits = s.circuits ∧ u.slots = s.slots ∧ u.lanes = s.lanes
        ∧ u.mailboxes = s.mailboxes ∧ u.free = s.free ∧ u.rep = s.lostNotesReports a.toNat s.rep)
      ∧ u.line = s.line ∧ Apart s u
    (CanTake s ⟨0x06#8, tag, [a]⟩ →
      (¬inRange → Gives (.stationWithdraw tag [a]) s (s.replied 0x86#8 tag [0x01#8]))
      ∧ (inRange → source → Gives (.stationWithdraw tag [a]) s (s.replied 0x86#8 tag [0x07#8]))
      ∧ (inRange → ¬source → t.state = .free → Gives (.stationWithdraw tag [a]) s (s.replied 0x86#8 tag [0x02#8]))
      ∧ (inRange → ¬source → t.state ≠ .free →
        ∃ u : State, Gives (.stationWithdraw tag [a]) s (u.replied 0x86#8 tag [0x00#8]) ∧ gone .free .withdraw u
          ∧ u.station a.toNat =
            { t with
              state := .free, accepted := none, candidate := none, missCount := 0, busyRun := 0, unackedPolls := 0
              abortPending := false, heard := false }))
    ∧ (CanTake s ⟨0x07#8, tag, [a]⟩ →
      (¬inRange → Gives (.stationBar tag [a]) s (s.replied 0x87#8 tag [0x01#8]))
      ∧ (inRange → t.state = .free → Gives (.stationBar tag [a]) s (s.replied 0x87#8 tag [0x02#8]))
      ∧ (inRange → t.state = .barred → Gives (.stationBar tag [a]) s (s.replied 0x87#8 tag [0x00#8]))
      ∧ (inRange → t.state ≠ .free → t.state ≠ .barred →
        ∃ u : State, Gives (.stationBar tag [a]) s (u.replied 0x87#8 tag [0x00#8]) ∧ gone .barred .bar u
          ∧ u.station a.toNat =
            { t with
              state := .barred, missCount := 0, candidate := none
              abortPending := t.abortPending || s.inFlightFor a.toNat }))

/-- R44, R45: STATION.UNBAR and STATION.BIND. The model's readings it rests on: taking a request (log entry 2). -/
def Obligations.UnbarAndBindChangeEntry : Prop :=
  ∀ (s : State) (tag a : Octet),
    let inRange := 1 ≤ a.toNat ∧ a.toNat ≤ 30
    (CanTake s ⟨0x08#8, tag, [a]⟩ →
      (¬inRange → Gives (.stationUnbar tag [a]) s (s.replied 0x88#8 tag [0x01#8]))
      ∧ (inRange → (s.station a.toNat).state ≠ .barred →
        Gives (.stationUnbar tag [a]) s (s.replied 0x88#8 tag [0x02#8]))
      ∧ (inRange → (s.station a.toNat).state = .barred →
        Gives (.stationUnbar tag [a]) s
          ((s.modStation a.toNat fun t => { t with state := .offline, missCount := 0, candidate := none }).replied
            0x88#8 tag [0x00#8])))
    ∧ (∀ l : Octet, CanTake s ⟨0x09#8, tag, [a, l]⟩ →
      (¬(inRange ∧ l.toNat ≤ 3) → Gives (.stationBind tag [a, l]) s (s.replied 0x89#8 tag [0x01#8]))
      ∧ (inRange ∧ l.toNat ≤ 3 → (s.station a.toNat).state = .free →
        Gives (.stationBind tag [a, l]) s (s.replied 0x89#8 tag [0x02#8]))
      ∧ (inRange ∧ l.toNat ≤ 3 → (s.station a.toNat).state ≠ .free →
        (∀ w, s.window.window = some w → w.owner = a.toNat →
          Gives (.stationBind tag [a, l]) s (s.replied 0x89#8 tag [0x03#8]))
        ∧ ((∀ w, s.window.window = some w → w.owner ≠ a.toNat) →
          Gives (.stationBind tag [a, l]) s
            ((s.modStation a.toNat fun t => { t with lane := l.toNat }).replied 0x89#8 tag [0x00#8]))))

/-- R46, R47: STATION.READ answers every field of the entry, in the order of R22, and clears the four counters after the copy
when its flag is set. The model's readings it rests on: taking a request (log entry 2). -/
def Obligations.StationReadCopiesEntry : Prop :=
  ∀ (s : State) (tag a flag : Octet), CanTake s ⟨0x0A#8, tag, [a, flag]⟩ →
    let t := s.station a.toNat
    let bit := fun (b : Bool) => if b then 0x01#8 else 0x00#8
    let code : Octet := match t.state with
      | .free => 0#8 | .offline => 1#8 | .joining => 2#8 | .online => 3#8 | .silent => 4#8 | .barred => 5#8
    let fields : List Octet :=
      [a, code, BitVec.ofNat 8 t.lane, (t.accepted.map (BitVec.ofNat 8)).getD 0xFF#8,
        (t.candidate.map (BitVec.ofNat 8)).getD 0xFF#8, BitVec.ofNat 8 t.missCount, bit t.noteToggle,
        bit t.abortPending, BitVec.ofNat 8 t.busyRun, BitVec.ofNat 8 t.unackedPolls, bit t.heard]
        ++ [t.missesTotal, t.malformedAnswers, t.badCheckPackets, t.windowsGranted].flatMap fun n =>
          [BitVec.ofNat 8 (n / 256), BitVec.ofNat 8 n]
    let ok := (1 ≤ a.toNat ∧ a.toNat ≤ 30) ∧ (flag = 0x00#8 ∨ flag = 0x01#8)
    (¬ok → Gives (.stationRead tag [a, flag]) s (s.replied 0x8A#8 tag [0x01#8]))
    ∧ (ok → flag = 0x00#8 → Gives (.stationRead tag [a, flag]) s (s.replied 0x8A#8 tag (0x00#8 :: fields)))
    ∧ (ok → flag = 0x01#8 → Gives (.stationRead tag [a, flag]) s
      ((s.modStation a.toNat fun t =>
          { t with missesTotal := 0, malformedAnswers := 0, badCheckPackets := 0, windowsGranted := 0 }).replied
        0x8A#8 tag (0x00#8 :: fields)))

/-- R26, R28, R29, R32, R33, R38, R16: a valid answer to a ring poll of an OFFLINE or SILENT station makes it JOINING, one of a
JOINING station makes it ONLINE, with STATION_STATE first and CONDITION after when the codes agree; both end a quiet run. R27:
the valid answer to a stale ring poll changes nothing. R3, R26: in a cycle that calls address 0 the octet is discarded; outside
a RUNNING cycle no answer arrives (log entry 11), under any of the names of an answer (log entry 7). The model's readings it
rests on too: the flag of a cycle in progress (log entry 3) and the collecting flag of a circuit (log entry 6). -/
def Obligations.ValidAnswersJoin : Prop :=
  (∀ (s : State) (octet : Octet) (c : Instr), c = .answerArrival octet ∨ c = .stationMissLimit octet ∨ c = .lineQuiet octet
      ∨ c = .busyTimeout octet ∨ c = .noAck octet →
    (¬(s.pin = .high ∧ s.line.cycleOpen = true ∧ s.line.state = .running) → exec c s = .next s)
    ∧ (s.poll.call = .none → c ≠ .answerArrival octet → exec c s = .next s)
    ∧ (s.pin = .high → s.line.cycleOpen = true → s.line.state = .running → s.poll.call = .none →
      Gives (.answerArrival octet) s s))
  ∧ ∀ (s : State) (octet : Octet) (a : Nat), s.pin = .high → s.line.cycleOpen = true → s.line.state = .running →
    s.poll.call = .ring a → 1 ≤ a → a ≤ 30 → octet.toNat / 8 ≠ 31 → Shape s →
    let t := s.station a
    let code := octet.toNat / 8
    let echo := octet.getLsbD 2
    let request := octet.getLsbD 1
    let line : LineEngine := { s.line with quietCount := 0, quietReported := false }
    (t.state = .free ∨ t.state = .barred →
      Gives (.answerArrival octet) s s ∧ exec (.busyTimeout octet) s = .next s ∧ exec (.noAck octet) s = .next s)
    ∧ (t.state = .offline ∨ t.state = .silent →
      Gives (.answerArrival octet) s
        { s.modStation a fun t => { t with state := .joining, candidate := some code, noteToggle := echo } with
          line := line })
    ∧ (t.state = .joining →
      ∃ u : State, Gives (.answerArrival octet) s u ∧ u.line = line
        ∧ (∀ b, b ≠ a → u.station b = s.station b)
        ∧ u.poll = { s.poll with stations := u.poll.stations }
        ∧ u.station a =
          { t with
            state := .online, missCount := 0, candidate := some code
            accepted := if t.candidate = some code then some code else t.accepted }
        ∧ (∀ n, n < 12 → u.circuit n = (s.circuit n).map fun c =>
            if c.source = a ∧ c.state = .muted then { c.emptied with state := .live } else c)
        ∧ u.window =
          { s.window with
            queue :=
              if request = true ∧ a ∉ s.window.queue ∧ (∀ w, s.window.window = some w → w.owner ≠ a) then
                s.window.queue ++ [a]
              else s.window.queue }
        ∧ u.notes = s.notes ∧ u.slots = s.slots ∧ u.lanes = s.lanes ∧ u.rx = s.rx ∧ u.mailboxes = s.mailboxes
        ∧ u.free = s.free ∧ Apart s u
        ∧ u.rep =
          (let circuits : List Report := (List.range 12).filterMap fun n => (s.circuit n).bind fun c =>
            if c.source = a ∧ c.state = .muted then
              some (.circuitState n a .live .muted .sourceOnline none s.line.cycleCounter)
            else none
           let accepted : List Report :=
            if t.candidate = some code ∧ t.accepted ≠ some code then
              [.condition a code t.accepted 0 s.line.cycleCounter]
            else []
           (Report.stationState a .online .joining .answered s.line.cycleCounter :: circuits ++ accepted).foldl
            ReportUnit.handOver s.rep))

/-- R40, R16, R27: a probe's answer: a valid one sets heard, with STATION_HEARD when it was clear, and ends a quiet run; a miss
or a malformed one clears heard; a probe of an address no longer FREE is stale and changes nothing. The model's readings it
rests on: the flag of a cycle in progress (log entry 3). -/
def Obligations.ProbeAnswersHeard : Prop :=
  ∀ (s : State) (octet : Octet) (a : Nat), s.pin = .high → s.line.cycleOpen = true → s.line.state = .running →
    s.poll.call = .probe a → 1 ≤ a → a ≤ 30 →
    let line : LineEngine := { s.line with quietCount := 0, quietReported := false }
    ((s.station a).state ≠ .free → Gives (.answerArrival octet) s s)
    ∧ ((s.station a).state = .free → octet.toNat / 8 = 31 →
      Gives (.answerArrival octet) s (s.modStation a fun t => { t with heard := false }))
    ∧ ((s.station a).state = .free → octet.toNat / 8 ≠ 31 → (s.station a).heard = true →
      Gives (.answerArrival octet) s { s with line := line })
    ∧ ((s.station a).state = .free → octet.toNat / 8 ≠ 31 → (s.station a).heard = false →
      Gives (.answerArrival octet) s
        { s.modStation a fun t => { t with heard := true } with
          line := line, rep := s.rep.handOver (.stationHeard a (octet.toNat / 8)) })

/-- R16, R17, R26, R27, R28, R29, R31, R32, R34, R47: a miss or malformed answer to a ring poll, by the station's state, with
the quiet count and LINE_QUIET. At the miss limit the station goes SILENT with the departure, whose reports and completions
come in their order (log entry 14), LINE_QUIET last; STATION_MISS_LIMIT is that event (log entry 7). The model's readings it
rests on too: the flag of a cycle in progress (log entry 3), the collecting flag of a circuit (log entry 6) and a command that
is no event (log entry 11). -/
def Obligations.MissedAnswersCount : Prop :=
  ∀ (s : State) (octet : Octet) (a : Nat), s.pin = .high → s.line.cycleOpen = true → s.line.state = .running →
    s.poll.call = .ring a → 1 ≤ a → a ≤ 30 → octet.toNat / 8 = 31 →
    let t := s.station a
    let count := min 255 (s.line.quietCount + 1)
    let quiet := !s.line.quietReported && decide (s.line.settings.quietLimit ≤ count)
    let line : LineEngine := { s.line with quietCount := count, quietReported := s.line.quietReported || quiet }
    let rep := if quiet = true then s.rep.handOver (.lineQuiet count s.line.settings.quietLimit) else s.rep
    let missed : Station :=
      { t with
        missesTotal := min 65535 (t.missesTotal + 1)
        malformedAnswers := if octet = 0xFF#8 then t.malformedAnswers else min 65535 (t.malformedAnswers + 1) }
    (t.state = .free ∨ t.state = .barred → Gives (.answerArrival octet) s s)
    ∧ (t.state = .offline ∨ t.state = .silent →
      Gives (.answerArrival octet) s { s.modStation a fun _ => missed with line := line, rep := rep })
    ∧ (t.state = .joining →
      Gives (.answerArrival octet) s
        { s.modStation a fun _ => { missed with state := .offline, candidate := none } with line := line, rep := rep })
    ∧ (t.state = .online → min 15 (t.missCount + 1) < s.line.settings.missLimit →
      Gives (.answerArrival octet) s
        { s.modStation a fun _ => { missed with missCount := min 15 (t.missCount + 1), candidate := none } with
          line := line, rep := rep }
      ∧ exec (.stationMissLimit octet) s = .next s)
    ∧ (t.state = .online → s.line.settings.missLimit ≤ min 15 (t.missCount + 1) → Shape s → LiveHandles s →
      ∀ c : Instr, c = .answerArrival octet ∨ c = .stationMissLimit octet →
      ∃ u : State, Gives c s u ∧ Departure s u a ∧ u.line = line ∧ Apart s u
        ∧ u.rep =
          (let departed := s.departureReports a .silent .missLimit
           if quiet = true then departed.handOver (.lineQuiet count s.line.settings.quietLimit) else departed)
        ∧ u.station a =
          { missed with
            state := .silent, missCount := min 15 (t.missCount + 1), candidate := none
            abortPending := t.abortPending || s.inFlightFor a })

/-- R16, R17, R27: a ring-poll miss raises the quiet count, stopping at 255, and at the quiet limit with quiet reported clear
it hands over LINE_QUIET last and sets quiet reported; LINE_QUIET is that event (log entry 7) and does nothing elsewhere. The
rest of the event is stated with the misses. The model's readings it rests on too: the flag of a cycle in progress (log entry
3) and a command that is no event (log entry 11). -/
def Obligations.QuietLineReported : Prop :=
  ∀ (s : State) (octet : Octet) (a : Nat), s.pin = .high → s.line.cycleOpen = true → s.line.state = .running →
    s.poll.call = .ring a → octet.toNat / 8 = 31 →
    (s.station a).state ≠ .free → (s.station a).state ≠ .barred →
    let count := min 255 (s.line.quietCount + 1)
    (s.line.settings.quietLimit ≤ count → s.line.quietReported = false →
      exec (.lineQuiet octet) s = exec (.answerArrival octet) s
      ∧ ∀ c : Instr, c = .answerArrival octet ∨ c = .lineQuiet octet →
      ∃ u rep, Gives c s u ∧ u.line = { s.line with quietCount := count, quietReported := true }
        ∧ u.rep = ReportUnit.handOver rep (.lineQuiet count s.line.settings.quietLimit))
    ∧ (count < s.line.settings.quietLimit ∨ s.line.quietReported = true →
      exec (.lineQuiet octet) s = .next s
      ∧ ∃ u : State, Gives (.answerArrival octet) s u ∧ u.line = { s.line with quietCount := count })

/-! ## Notes (chapter 3) -/

/-- R30, R38, R53 to R57, R92, R94, R16: a valid answer to a ring poll of an ONLINE station: miss count 0, the double-look, the
request for a window, and the judgement of the note octet called. The 64th busy answer and the 4th wrong echo finish the note;
BUSY_TIMEOUT and NO_ACK are those events (log entry 7). The model's readings it rests on too: the flag of a cycle in progress
(log entry 3) and a command that is no event (log entry 11). -/
def Obligations.OnlineAnswersJudgeNotes : Prop :=
  ∀ (s : State) (octet : Octet) (a : Nat), s.pin = .high → s.line.cycleOpen = true → s.line.state = .running →
    s.poll.call = .ring a → 1 ≤ a → a ≤ 30 → octet.toNat / 8 ≠ 31 → (s.station a).state = .online → Shape s →
    let t := s.station a
    let code := octet.toNat / 8
    let echo := octet.getLsbD 2
    let request := octet.getLsbD 1
    let busy := octet.getLsbD 0
    let accepted := t.candidate = some code ∧ t.accepted ≠ some code
    let base : Station :=
      { t with
        missCount := 0, candidate := some code
        accepted := if t.candidate = some code then some code else t.accepted }
    let rep := if accepted then s.rep.handOver (.condition a code t.accepted 0 s.line.cycleCounter) else s.rep
    let common := fun (u : State) =>
      u.line = { s.line with quietCount := 0, quietReported := false }
      ∧ u.poll = { s.poll with stations := u.poll.stations } ∧ (∀ b, b ≠ a → u.station b = s.station b)
      ∧ u.window =
        { s.window with
          queue :=
            if request = true ∧ a ∉ s.window.queue ∧ (∀ w, s.window.window = some w → w.owner ≠ a) then
              s.window.queue ++ [a]
            else s.window.queue }
      ∧ u.slots = s.slots ∧ u.circuits = s.circuits ∧ u.lanes = s.lanes ∧ u.rx = s.rx ∧ u.mailboxes = s.mailboxes
      ∧ u.free = s.free ∧ Apart s u
    let finished := fun (n : Note) (outcome : NoteOutcome) =>
      Completion.note
        { handle := n.handle, station := n.station, outcome := outcome, length := n.octets.length
          acknowledged := n.nextIndex, cycle := s.line.cycleCounter }
    let placed := fun (e : Completion) => ReportUnit.transfer s.line.cycleCounter { rep with entries := rep.entries ++ [e] }
    (∀ c, s.notes.callOut = some c → c.mark = .none →
      ∃ u : State, Gives (.answerArrival octet) s u ∧ common u ∧ u.notes = s.notes ∧ u.rep = rep
        ∧ u.station a = { base with noteToggle := echo })
    ∧ (∀ c, s.notes.callOut = some c → c.mark = .abort →
      ∃ u : State, Gives (.answerArrival octet) s u ∧ common u ∧ u.notes = s.notes ∧ u.rep = rep
        ∧ u.station a = { base with noteToggle := echo, abortPending := false })
    ∧ (∀ c h i, s.notes.callOut = some c → c.mark = .more ∨ c.mark = .endMark → c.note = some (h, i) →
      (∀ n ∈ s.notes.store, n.handle = h → n.state = .queued) →
      ∃ u : State, Gives (.answerArrival octet) s u ∧ common u ∧ u.notes = s.notes ∧ u.rep = rep ∧ u.station a = base)
    ∧ (∀ c i A n B, s.notes.callOut = some c → c.mark = .more ∨ c.mark = .endMark → c.note = some (n.handle, i) →
      s.notes.store = A ++ n :: B → n.state = .inFlight → n.station = a →
      (∀ m ∈ A ++ B, m.handle ≠ n.handle) →
      (busy = true → t.busyRun + 1 < 64 →
        exec (.busyTimeout octet) s = .next s
        ∧ ∃ u : State, Gives (.answerArrival octet) s u ∧ common u ∧ u.notes = s.notes ∧ u.rep = rep
          ∧ u.station a = { base with busyRun := t.busyRun + 1 })
      ∧ (busy = true → 64 ≤ t.busyRun + 1 → ∀ k : Instr, k = .answerArrival octet ∨ k = .busyTimeout octet →
        ∃ u : State, Gives k s u ∧ common u ∧ u.notes = { s.notes with store := A ++ B }
          ∧ u.rep = placed (finished n .busyTimeout)
          ∧ u.station a = { base with busyRun := t.busyRun + 1, abortPending := true })
      ∧ (busy = false → echo ≠ c.toggle → t.unackedPolls + 1 < 4 →
        exec (.noAck octet) s = .next s
        ∧ ∃ u : State, Gives (.answerArrival octet) s u ∧ common u ∧ u.notes = s.notes ∧ u.rep = rep
          ∧ u.station a = { base with unackedPolls := t.unackedPolls + 1, busyRun := 0 })
      ∧ (busy = false → echo ≠ c.toggle → 4 ≤ t.unackedPolls + 1 →
        ∀ k : Instr, k = .answerArrival octet ∨ k = .noAck octet →
        ∃ u : State, Gives k s u ∧ common u ∧ u.notes = { s.notes with store := A ++ B }
          ∧ u.rep = placed (finished n .noAck)
          ∧ u.station a = { base with unackedPolls := t.unackedPolls + 1, busyRun := 0, abortPending := true })
      ∧ (busy = false → echo = c.toggle → c.mark = .more →
        ∃ u : State, Gives (.answerArrival octet) s u ∧ common u
          ∧ u.notes = { s.notes with store := A ++ { n with nextIndex := n.nextIndex + 1 } :: B } ∧ u.rep = rep
          ∧ u.station a = { base with noteToggle := c.toggle, busyRun := 0, unackedPolls := 0 })
      ∧ (busy = false → echo = c.toggle → c.mark = .endMark →
        ∃ u : State, Gives (.answerArrival octet) s u ∧ common u ∧ u.notes = { s.notes with store := A ++ B }
          ∧ u.rep = placed (finished { n with nextIndex := n.nextIndex + 1 } .delivered)
          ∧ u.station a = { base with noteToggle := c.toggle, busyRun := 0, unackedPolls := 0 }))

/-- R50, R51: NOTE.SEND: the checks in their order, then the note joins the store QUEUED with the next handle: the first number
after the last handle given, wrapping from 65535 to 1, that names no live note. STORE is named when the store is full, whatever
the station holds (log entry 13). The model's readings it rests on too: taking a request (log entry 2) and the handle counter
(log entry 24). -/
def Obligations.NoteSendQueuesNote : Prop :=
  ∀ (s : State) (tag a : Octet) (octets : List Octet), octets.length ≤ 16 → CanTake s ⟨0x0B#8, tag, a :: octets⟩ →
    let c : Instr := .noteSend tag (a :: octets)
    let ok := (1 ≤ a.toNat ∧ a.toNat ≤ 30) ∧ octets ≠ []
    let stateOk := (s.station a.toNat).state ≠ .free ∧ (s.station a.toNat).state ≠ .barred
    let own := s.notes.store.countP fun n => decide (n.station = a.toNat)
    (¬ok → Gives c s (s.replied 0x8B#8 tag [0x01#8]))
    ∧ (ok → ¬stateOk → Gives c s (s.replied 0x8B#8 tag [0x02#8]))
    ∧ (ok → stateOk → 32 ≤ s.notes.store.length → Gives c s (s.replied 0x8B#8 tag [0x04#8, 0x01#8]))
    ∧ (ok → stateOk → s.notes.store.length < 32 → 4 ≤ own → Gives c s (s.replied 0x8B#8 tag [0x04#8, 0x02#8]))
    ∧ (ok → stateOk → s.notes.store.length < 32 → own < 4 → 96 ≤ s.placesHeld →
      Gives c s (s.replied 0x8B#8 tag [0x04#8, 0x03#8]))
    ∧ (ok → stateOk → s.notes.store.length < 32 → own < 4 → s.placesHeld < 96 →
      ∃ h, (1 ≤ h ∧ h ≤ 65535) ∧ h ∉ s.liveNotes
        ∧ (let after := fun (k : Nat) => if k < 65535 then k + 1 else 1
           ∃ n, h = Nat.iterate after (n + 1) s.notes.lastHandle
             ∧ ∀ m, m < n → Nat.iterate after (m + 1) s.notes.lastHandle ∈ s.liveNotes)
        ∧ Gives c s
          (({ s with
              notes :=
                { s.notes with
                  store := s.notes.store ++
                    [{ handle := h, station := a.toNat, octets := octets, nextIndex := 0, state := .queued }]
                  lastHandle := h } } : State).replied
            0x8B#8 tag [0x00#8, BitVec.ofNat 8 (h / 256), BitVec.ofNat 8 h]))

/-- R57, R58, R59: NOTE.CANCEL: a held note finishes CANCELLED, with abort pending when it was IN_FLIGHT; a finished one whose
completion waits is LATE with its outcome; a handle that names nothing live is UNKNOWN. The model's readings it rests on:
taking a request (log entry 2). -/
def Obligations.NoteCancelFinishesNote : Prop :=
  ∀ (s : State) (tag hi lo : Octet), CanTake s ⟨0x0C#8, tag, [hi, lo]⟩ →
    let h := hi.toNat * 256 + lo.toNat
    let c : Instr := .noteCancel tag [hi, lo]
    (∀ A n B, s.notes.store = A ++ n :: B → n.handle = h → (∀ m ∈ A ++ B, m.handle ≠ h) →
      Gives c s
        (({ (if n.state = .inFlight then s.modStation n.station fun t => { t with abortPending := true } else s) with
            notes := { s.notes with store := A ++ B }
            rep := ReportUnit.transfer s.line.cycleCounter
              { s.rep with
                entries := s.rep.entries ++
                  [.note
                    { handle := h, station := n.station, outcome := .cancelled, length := n.octets.length
                      acknowledged := n.nextIndex, cycle := s.line.cycleCounter }] } } : State).replied
          0x8C#8 tag
          [0x00#8, if n.state = .queued then 0x00#8 else 0x01#8, BitVec.ofNat 8 n.nextIndex]))
    ∧ (∀ A d B, (∀ m ∈ s.notes.store, m.handle ≠ h) → s.rep.entries = A ++ .note d :: B → d.handle = h →
      (∀ x, .note x ∈ A → x.handle ≠ h) →
      Gives c s
        (s.replied 0x8C#8 tag
          [0x09#8, match d.outcome with
            | .delivered => 0#8 | .cancelled => 1#8 | .noAck => 2#8 | .busyTimeout => 3#8 | .stationLost => 4#8
            | .lineStopped => 5#8]))
    ∧ ((∀ m ∈ s.notes.store, m.handle ≠ h) → (∀ x, .note x ∈ s.rep.entries → x.handle ≠ h) →
      Gives c s (s.replied 0x8C#8 tag [0x08#8]))

/-! ## The Slot Map, lanes and circuits (chapter 4) -/

/-- R67 to R69, R71 to R78, R82, R85 to R87: LANE.SET: its refusals in their order, the first refusing slot named; when it is
taken it goes through the steps of R76: the precedence and the entries of dropped waited slots (`p`), the claim of the new
slots with every loss (`q`), the release of the dropped held slots with every regain (`u`). The lane's claimed sets are then
the listed slots, each new slot and each held one that stays is the lane's at the new precedence, and the reply carries held
and waited slots (the waited ones in the order of the Reclaim List, the held ones ascending, log entry 12). With no loser and
nothing let go, the rest stays as it is. The model's readings it rests on too: taking a request (log entry 2) and the
collecting flag of a circuit (log entry 6). -/
def Obligations.LaneSetClaimsSlots : Prop :=
  ∀ (s : State) (tag l prec cut : Octet) (down up : List Octet),
    down.length ≤ 43 → CanTake s ⟨0x0D#8, tag, [l, prec, cut, BitVec.ofNat 8 down.length] ++ down
      ++ [BitVec.ofNat 8 up.length] ++ up⟩ → up.length ≤ 255 → Shape s →
    let c : Instr := .laneSet tag ([l, prec, cut, BitVec.ofNat 8 down.length] ++ down ++ [BitVec.ofNat 8 up.length] ++ up)
    let o := Owner.lane l.toNat
    let listed : Dir → List Nat := fun d => match d with | .down => down.map (·.toNat) | .up => up.map (·.toNat)
    let ok := l.toNat ≤ 3 ∧ (1 ≤ prec.toNat ∧ prec.toNat ≤ 7) ∧ (cut = 0x00#8 ∨ cut = 0x01#8)
      ∧ ∀ d, (listed d).Nodup ∧ ∀ x ∈ listed d, 5 ≤ x ∧ x ≤ 47
    let claimed := fun (s : State) (d : Dir) (x : Nat) =>
      (∃ e, s.mapEntry d x = some e ∧ e.owner = o)
        ∨ ∃ e ∈ s.slots.reclaim, e.owner = o ∧ e.dir = d ∧ e.slot = x
    let same := fun d => ∀ x, 5 ≤ x → x ≤ 47 → (x ∈ listed d ↔ claimed s d x)
    let busy := (((s.lane l.toNat).engine = .sending ∨ (s.lane l.toNat).engine = .aborting) ∧ ¬same .down)
      ∨ ((∃ w, s.window.window = some w ∧ w.lane = l.toNat) ∧ ¬same .up)
    let fresh := fun (d : Dir) (x : Nat) => x ∈ listed d ∧ ¬claimed s d x
    let refuses := fun (d : Dir) (x : Nat) (e : MapEntry) => fresh d x ∧ s.mapEntry d x = some e ∧ prec.toNat ≤ e.prec
    (∀ e ∈ s.slots.reclaim, 5 ≤ e.slot ∧ e.slot ≤ 47) →
    (¬ok → Gives c s (s.replied 0x8D#8 tag [0x01#8]))
    ∧ (ok → busy → Gives c s (s.replied 0x8D#8 tag [0x03#8]))
    ∧ (∀ d x e, ok → ¬busy → refuses d x e →
      (∀ y, y < x → ∀ e', ¬refuses d y e') → (d = .up → ∀ y e', ¬refuses .down y e') →
      Gives c s
        (s.replied 0x8D#8 tag
          [0x06#8, if d = .down then 0x00#8 else 0x01#8, BitVec.ofNat 8 x,
            match e.owner with
            | .lane k => BitVec.ofNat 8 (0x10 + k)
            | .circuit k => BitVec.ofNat 8 (0x20 + k),
            BitVec.ofNat 8 e.prec]))
    ∧ (ok → ¬busy → (∀ d x e, ¬refuses d x e) →
      ∃ u p q : State,
        (let octets := fun (y : List Nat) => BitVec.ofNat 8 y.length :: y.map (BitVec.ofNat 8)
         let held := fun (d : Dir) => (List.range' 5 43).filter fun x =>
          (u.mapEntry d x).any fun e => decide (e.owner = o)
         let waited := u.slots.reclaim.filter fun e => decide (e.owner = o)
         Gives c s
          (u.replied 0x8D#8 tag
            ([0x00#8] ++ octets (held .down) ++ octets (held .up)
              ++ (BitVec.ofNat 8 waited.length :: waited.flatMap fun e =>
                [match e.dir with | .down => 0x00#8 | .up => 0x01#8, BitVec.ofNat 8 e.slot]))))
        ∧ (p = { s with slots := p.slots, lanes := p.lanes }
          ∧ (∀ d x, p.mapEntry d x = (s.mapEntry d x).map fun e =>
            if e.owner = o then { e with prec := prec.toNat } else e)
          ∧ p.slots.reclaim =
            ((s.slots.reclaim.filter fun e => decide (e.owner ≠ o ∨ e.slot ∈ listed e.dir)).map fun e =>
              if e.owner = o then { e with prec := prec.toNat } else e)
          ∧ ∀ k, p.lane k =
            if k = l.toNat then { s.lane k with prec := prec.toNat, cutThrough := cut == 0x01#8 } else s.lane k)
        ∧ ClaimApplied o prec.toNat fresh p q
        ∧ (∃ dropped : List SlotRef, InOrder dropped
          ∧ (∀ d x, (d, x) ∈ dropped ↔ s.owns o d x ∧ x ∉ listed d) ∧ Through (LetsGo o) dropped q u)
        ∧ (u.lane l.toNat).prec = prec.toNat ∧ (u.lane l.toNat).cutThrough = (cut == 0x01#8)
        ∧ (∀ d x, 5 ≤ x → x ≤ 47 → (claimed u d x ↔ x ∈ listed d))
        ∧ (∀ d x, fresh d x → u.mapEntry d x = some { owner := o, prec := prec.toNat })
        ∧ (∀ d x e, x ∈ listed d → s.mapEntry d x = some e → e.owner = o →
          u.mapEntry d x = some { owner := o, prec := prec.toNat })
        ∧ (∀ k, k ≠ l.toNat → (u.lane k).prec = (s.lane k).prec ∧ (u.lane k).cutThrough = (s.lane k).cutThrough)
        ∧ u.line = s.line ∧ u.poll = s.poll ∧ u.notes = s.notes ∧ u.mailboxes = s.mailboxes ∧ Apart s u
        ∧ ((∀ d x, fresh d x → s.mapEntry d x = none) → (∀ d x, claimed s d x → x ∈ listed d) →
          u.circuits = s.circuits ∧ u.window = s.window ∧ u.rx = s.rx ∧ u.free = s.free ∧ u.rep = s.rep
          ∧ u.slots.reclaim =
            (s.slots.reclaim.map fun e => if e.owner = o then { e with prec := prec.toNat } else e)
          ∧ (∀ k, u.lane k =
            if k = l.toNat then { s.lane k with prec := prec.toNat, cutThrough := cut == 0x01#8 } else s.lane k)
          ∧ ∀ d x, x ∉ listed d → u.mapEntry d x = s.mapEntry d x))

/-- R67 to R69, R71 to R73, R77 to R80, R82, R85 to R87, R190: CIRCUIT.OPEN: a width outside 1 to 4 is BAD_ARG whatever follows
it; its refusals in their order; when it is taken the circuit has the lowest free number, is LIVE exactly when its source is
ONLINE, has empty stores, and owns every slot of both lists at its precedence; its claim is applied with every loss that it
causes; with no loser nothing else changes. The model's readings it rests on: taking a request (log entry 2) and the collecting
flag of a circuit (log entry 6). -/
def Obligations.CircuitOpenClaimsSlots : Prop :=
  (∀ (s : State) (tag source width prec : Octet) (lists : List Octet), ¬(1 ≤ width.toNat ∧ width.toNat ≤ 4) →
    CanTake s ⟨0x0E#8, tag, source :: width :: prec :: lists⟩ →
    Gives (.circuitOpen tag (source :: width :: prec :: lists)) s (s.replied 0x8E#8 tag [0x01#8]))
  ∧ ∀ (s : State) (tag source prec : Octet) (up down : List Octet),
    (1 ≤ up.length ∧ up.length ≤ 4) → down.length = up.length →
    CanTake s ⟨0x0E#8, tag, [source, BitVec.ofNat 8 up.length, prec] ++ up ++ down⟩ → Shape s →
    let c : Instr := .circuitOpen tag ([source, BitVec.ofNat 8 up.length, prec] ++ up ++ down)
    let listed : Dir → List Nat := fun d => match d with | .down => down.map (·.toNat) | .up => up.map (·.toNat)
    let ok := (1 ≤ source.toNat ∧ source.toNat ≤ 30) ∧ (1 ≤ prec.toNat ∧ prec.toNat ≤ 7)
      ∧ ∀ d, (listed d).Nodup ∧ ∀ x ∈ listed d, 5 ≤ x ∧ x ≤ 47
    (¬ok → Gives c s (s.replied 0x8E#8 tag [0x01#8]))
    ∧ (ok → (∀ n, n < 12 → s.circuit n ≠ none) → Gives c s (s.replied 0x8E#8 tag [0x05#8]))
    ∧ (∀ n, ok → n < 12 → s.circuit n = none → (∀ m, m < n → s.circuit m ≠ none) →
      ((s.station source.toNat).state = .free → Gives c s (s.replied 0x8E#8 tag [0x02#8]))
      ∧ ((s.station source.toNat).state ≠ .free →
        let refuses := fun (d : Dir) (x : Nat) (e : MapEntry) =>
          x ∈ listed d ∧ s.mapEntry d x = some e ∧ e.owner ≠ .circuit n ∧ prec.toNat ≤ e.prec
        let state : CircuitState := if (s.station source.toNat).state = .online then .live else .muted
        (∀ d x e, refuses d x e →
          (∀ y, y < x → ∀ e', ¬refuses d y e') → (d = .up → ∀ y e', ¬refuses .down y e') →
          Gives c s
            (s.replied 0x8E#8 tag
              [0x06#8, if d = .down then 0x00#8 else 0x01#8, BitVec.ofNat 8 x,
                match e.owner with
                | .lane k => BitVec.ofNat 8 (0x10 + k)
                | .circuit k => BitVec.ofNat 8 (0x20 + k),
                BitVec.ofNat 8 e.prec]))
        ∧ ((∀ d x e, ¬refuses d x e) →
          ∃ u : State, Gives c s
              (u.replied 0x8E#8 tag [0x00#8, BitVec.ofNat 8 n, if state = .live then 0x00#8 else 0x01#8])
            ∧ u.circuit n = some
              { source := source.toNat, up := listed .up, down := listed .down, prec := prec.toNat, state := state
                incoming := List.replicate up.length none, outgoing := List.replicate up.length none
                collects := false }
            ∧ (∀ d x, x ∈ listed d → u.mapEntry d x = some { owner := .circuit n, prec := prec.toNat })
            ∧ ClaimApplied (.circuit n) prec.toNat (fun d x => x ∈ listed d)
              { s with
                circuits := s.circuits.set n (some
                  { source := source.toNat, up := listed .up, down := listed .down, prec := prec.toNat, state := state
                    incoming := List.replicate up.length none, outgoing := List.replicate up.length none
                    collects := false }) } u
            ∧ u.line = s.line ∧ u.poll = s.poll ∧ u.notes = s.notes ∧ u.mailboxes = s.mailboxes ∧ Apart s u
            ∧ ((∀ d x, x ∈ listed d → s.mapEntry d x = none) →
              u.lanes = s.lanes ∧ u.window = s.window ∧ u.rx = s.rx ∧ u.free = s.free ∧ u.rep = s.rep
              ∧ u.slots.reclaim = s.slots.reclaim ∧ (∀ m, m ≠ n → u.circuit m = s.circuit m)
              ∧ ∀ d x, x ∉ listed d → u.mapEntry d x = s.mapEntry d x))))

/-- R70, R72, R78, R82, R84, R86, R87: CIRCUIT.CLOSE: the circuit's Reclaim List entries go, its slots are let go one by one,
each to the entry that wins it, whose owner is told, or to no owner, every other slot stays, and its number is free; a circuit
that is not DISPLACED stays as it is. The model's readings it rests on: taking a request (log entry 2) and the collecting flag
of a circuit (log entry 6). -/
def Obligations.CircuitCloseFreesSlots : Prop :=
  ∀ (s : State) (tag n : Octet), CanTake s ⟨0x0F#8, tag, [n]⟩ → Shape s →
    (12 ≤ n.toNat → Gives (.circuitClose tag [n]) s (s.replied 0x8F#8 tag [0x01#8]))
    ∧ (n.toNat < 12 → s.circuit n.toNat = none →
      Gives (.circuitClose tag [n]) s (s.replied 0x8F#8 tag [0x08#8]))
    ∧ (∀ c, n.toNat < 12 → s.circuit n.toNat = some c →
      ∃ u : State, Gives (.circuitClose tag [n]) s (u.replied 0x8F#8 tag [0x00#8])
        ∧ u.circuit n.toNat = none
        ∧ (∃ (letGo : List SlotRef) (v : State),
          InOrder letGo ∧ (∀ d x, (d, x) ∈ letGo ↔ x ∈ c.slots d ∧ s.owns (.circuit n.toNat) d x)
            ∧ Through (LetsGo (.circuit n.toNat)) letGo
              { s with
                slots :=
                  { s.slots with reclaim := s.slots.reclaim.filter fun e => decide (e.owner ≠ .circuit n.toNat) } } v
            ∧ u = { v with circuits := v.circuits.set n.toNat none })
        ∧ (∀ e ∈ u.slots.reclaim, e ∈ s.slots.reclaim ∧ e.owner ≠ .circuit n.toNat)
        ∧ (∀ d x, 5 ≤ x → x ≤ 47 →
          let own := (∃ e, s.mapEntry d x = some e ∧ e.owner = .circuit n.toNat)
            ∧ x ∈ (match d with | .down => c.down | .up => c.up)
          let waiting := s.slots.reclaim.filter fun e =>
            decide (e.owner ≠ .circuit n.toNat ∧ e.dir = d ∧ e.slot = x)
          (¬own → u.mapEntry d x = s.mapEntry d x)
          ∧ (own → waiting = [] → u.mapEntry d x = none)
          ∧ (∀ e, own → Wins waiting e → u.mapEntry d x = some { owner := e.owner, prec := e.prec }))
        ∧ (∀ e ∈ s.slots.reclaim, e.owner ≠ .circuit n.toNat → e ∉ u.slots.reclaim →
          u.mapEntry e.dir e.slot = some { owner := e.owner, prec := e.prec })
        ∧ (∀ m k, m ≠ n.toNat → s.circuit m = some k → k.state ≠ .displaced → u.circuit m = some k)
        ∧ u.lanes = s.lanes ∧ u.line = s.line ∧ u.poll = s.poll ∧ u.notes = s.notes ∧ u.window = s.window
        ∧ u.rx = s.rx ∧ u.mailboxes = s.mailboxes ∧ u.free = s.free ∧ Apart s u)

/-- R4, R81: an up octet in a slot sampled to a circuit is stored at its position when the circuit collects, and discarded when
it does not; the turn of a down slot sampled to a circuit sends the outgoing store's octet, FFh for an empty place or for a
circuit that has gone; a slot sampled to no circuit is no event of the circuit unit. The model's readings it rests on: the flag
of a cycle in progress (log entry 3), the driven octets (log entry 4), the collecting flag of a circuit (log entry 6) and a
command that is no event (log entry 11). -/
def Obligations.CircuitOctetsRepeat : Prop :=
  ∀ (s : State) (slot : Nat) (octet : Octet),
    let sampled := fun (l : List (Option Owner)) => (l[slot - 5]?).join
    let running := s.pin = .high ∧ s.line.cycleOpen = true ∧ s.line.state = .running ∧ 5 ≤ slot
    (∀ n c (i : Nat), running → sampled s.line.sampleUp = some (.circuit n) → s.circuit n = some c → c.up[i]? = some slot →
      (∀ j, j < i → c.up[j]? ≠ some slot) →
      (c.collects = true → Gives (.circuitUpOctet slot octet) s
        { s with circuits := s.circuits.set n (some { c with incoming := c.incoming.set i (some octet) }) })
      ∧ (c.collects = false → Gives (.circuitUpOctet slot octet) s { s with circuits := s.circuits.set n (some c) }))
    ∧ (∀ n, running → sampled s.line.sampleUp = some (.circuit n) →
      (s.circuit n = none ∨ ∃ c, s.circuit n = some c ∧ slot ∉ c.up) →
      exec (.circuitUpOctet slot octet) s = .next s)
    ∧ (∀ n c (i : Nat), running → sampled s.line.sampleDown = some (.circuit n) → s.circuit n = some c →
      c.down[i]? = some slot → (∀ j, j < i → c.down[j]? ≠ some slot) →
      Gives (.circuitDownSlot slot) s
        { s with line := { s.line with driven := s.line.driven.set slot (((c.outgoing[i]?).join).getD 0xFF#8) } })
    ∧ (∀ n, running → sampled s.line.sampleDown = some (.circuit n) →
      (s.circuit n = none ∨ ∃ c, s.circuit n = some c ∧ slot ∉ c.down ∧ c.outgoing.length = c.down.length) →
      Gives (.circuitDownSlot slot) s
        { s with line := { s.line with driven := s.line.driven.set slot 0xFF#8 } })
    ∧ (¬(running ∧ ∃ n, sampled s.line.sampleUp = some (.circuit n)) → exec (.circuitUpOctet slot octet) s = .next s)
    ∧ (¬(running ∧ ∃ n, sampled s.line.sampleDown = some (.circuit n)) → exec (.circuitDownSlot slot) s = .next s)

/-! ## Windows (chapter 5) -/

/-- R91, R92: the bid octet of a RUNNING cycle: FFh is no bid; a wrong check, or address 0 or 31, is a collision; a well-formed
bid queues an ONLINE station that is neither queued nor the owner, is ignored as a duplicate when it is, and is counted as
ignored when the station is not ONLINE. R106: both counts stop at 65535. Outside a RUNNING cycle no bid octet arrives (log
entry 11). The model's readings it rests on too: the flag of a cycle in progress (log entry 3). -/
def Obligations.BidsClassedAndQueued : Prop :=
  ∀ (s : State) (octet : Octet),
    let a := octet.toNat / 8
    let ones := (if octet.getLsbD 7 then 1 else 0) + (if octet.getLsbD 6 then 1 else 0)
      + (if octet.getLsbD 5 then 1 else 0) + (if octet.getLsbD 4 then 1 else 0) + (if octet.getLsbD 3 then 1 else 0)
    let wellFormed := octet ≠ 0xFF#8 ∧ octet.toNat % 8 = 7 - ones ∧ 1 ≤ a ∧ a ≤ 30
    let queued := a ∈ s.window.queue ∨ ∃ w, s.window.window = some w ∧ w.owner = a
    (¬(s.pin = .high ∧ s.line.cycleOpen = true ∧ s.line.state = .running) → exec (.bidArrival octet) s = .next s)
    ∧ (s.pin = .high → s.line.cycleOpen = true → s.line.state = .running →
      (octet = 0xFF#8 → Gives (.bidArrival octet) s s)
      ∧ (octet ≠ 0xFF#8 → ¬wellFormed → Gives (.bidArrival octet) s
        { s with window := { s.window with bidCollisions := min 65535 (s.window.bidCollisions + 1) } })
      ∧ (wellFormed → (s.station a).state ≠ .online → Gives (.bidArrival octet) s
        { s with window := { s.window with ignoredBids := min 65535 (s.window.ignoredBids + 1) } })
      ∧ (wellFormed → (s.station a).state = .online → queued → Gives (.bidArrival octet) s s)
      ∧ (wellFormed → (s.station a).state = .online → ¬queued → Gives (.bidArrival octet) s
        { s with window := { s.window with queue := s.window.queue ++ [a] } }))

/-- R97, R99, R100, R105, R141: up octets in a lane's slot before a packet: discarded outside the open window's up set; FFh is
skipped; an idle cycle is counted at the highest slot of the up set and the fourth ends the window EMPTY; the first other octet
begins the packet. WINDOW_EMPTY is the fourth idle cycle's arrival (log entry 7). The model's readings it rests on too: the
flag of a cycle in progress (log entry 3) and a command that is no event (log entry 11). -/
def Obligations.IdleWindowCounts : Prop :=
  ∀ (s : State) (slot : Nat) (octet : Octet),
    let running := s.pin = .high ∧ s.line.cycleOpen = true ∧ s.line.state = .running ∧ 5 ≤ slot
    let taken := fun (w : Window) => running ∧ s.window.window = some w
      ∧ (s.line.sampleUp[slot - 5]?).join = some (.lane w.lane) ∧ slot ∈ w.upSet
    let last := fun (w : Window) => ∀ x ∈ w.upSet, x ≤ slot
    ((∀ w, ¬taken w) → exec (.windowUpOctet slot octet) s = .next s ∧ exec (.windowEmpty slot octet) s = .next s)
    ∧ (∀ w, taken w → w.packetStarted = true → exec (.windowEmpty slot octet) s = .next s)
    ∧ (∀ w, taken w → w.packetStarted = false → s.rx.state = .idle →
      (octet ≠ 0xFF#8 →
        exec (.windowEmpty slot octet) s = .next s
        ∧ Gives (.windowUpOctet slot octet) s
          { s with
            window := { s.window with window := some { w with packetStarted := true } }
            rx :=
              { s.rx with
                state := .header
                record :=
                  { ReceiveRecord.empty with
                    port := some octet, taken := 1, check := crc [octet], stamp := s.line.cycleCounter } } })
      ∧ (octet = 0xFF#8 → ¬last w →
        exec (.windowEmpty slot octet) s = .next s ∧ Gives (.windowUpOctet slot octet) s s)
      ∧ (octet = 0xFF#8 → last w → w.idleRun + 1 < 4 →
        exec (.windowEmpty slot octet) s = .next s
        ∧ Gives (.windowUpOctet slot octet) s
          { s with window := { s.window with window := some { w with idleRun := w.idleRun + 1 } } })
      ∧ (octet = 0xFF#8 → last w → 4 ≤ w.idleRun + 1 →
        ∀ c : Instr, c = .windowUpOctet slot octet ∨ c = .windowEmpty slot octet →
        Gives c s
          { s with
            window := { s.window with window := none }
            rep := s.rep.handOver
              (.rxFault
                { fault := .empty, owner := w.owner, lane := w.lane, port := s.rx.record.port
                  length := s.rx.record.length, cyclesUsed := w.cyclesUsed, slotLost := none, stationField := none
                  checks := none, cycle := s.line.cycleCounter }) }))

/-! ## Receiving and sorting packets (chapter 8) -/

/-- R141 to R145, R149: the header: its octets are taken into the record and the check, and the fourth judges it: FOREIGN,
LONG, then the sort, the room of the mailbox and the blocks. The model's readings it rests on: the flag of a cycle in progress
(log entry 3) and a field whose first octet has come (log entry 19). -/
def Obligations.HeaderJudgedAtFourthOctet : Prop :=
  ∀ (s : State) (slot : Nat) (octet port : Octet) (w : Window),
    s.pin = .high → s.line.cycleOpen = true → s.line.state = .running → 5 ≤ slot →
    (s.line.sampleUp[slot - 5]?).join = some (.lane w.lane) → slot ∈ w.upSet → s.window.window = some w →
    w.packetStarted = true → s.rx.state = .header → s.rx.record.port = some port →
    let c : Instr := .windowUpOctet slot octet
    let r := s.rx.record
    let next : ReceiveRecord := { r with taken := r.taken + 1, check := crcOctet r.check octet }
    let fault := fun (k : ReceiveFault) (length : Nat) (st : Option Octet) => Report.rxFault
      { fault := k, owner := w.owner, lane := w.lane, port := some port, length := some length
        cyclesUsed := w.cyclesUsed, slotLost := none, stationField := st, checks := none
        cycle := s.line.cycleCounter }
    let closed : WindowUnit := { s.window with window := none }
    (r.station = none → Gives c s { s with rx := { s.rx with record := { next with station := some octet } } })
    ∧ (∀ st, r.station = some st → r.lengthHigh = none →
      Gives c s { s with rx := { s.rx with record := { next with lengthHigh := some octet } } })
    ∧ (∀ st hi, r.station = some st → r.lengthHigh = some hi →
      let length := hi.toNat * 256 + octet.toNat
      let judged : ReceiveRecord := { next with length := some length }
      let blocks := max 1 ((length + 31) / 32)
      (st.toNat ≠ w.owner →
        Gives c s
          { s with
            window := closed
            rx := { s.rx with state := .idle, record := .empty, foreign := min 65535 (s.rx.foreign + 1) }
            rep := s.rep.handOver (fault .foreign length (some st)) })
      ∧ (st.toNat = w.owner → 512 < length →
        Gives c s
          { s with
            window := closed
            rx := { s.rx with state := .idle, record := .empty, long := min 65535 (s.rx.long + 1) }
            rep := s.rep.handOver (fault .long length none) })
      ∧ (st.toNat = w.owner → length ≤ 512 → s.sort port st = none →
        Gives c s
          { s with
            rx :=
              { s.rx with
                state := .drain, unclaimed := min 65535 (s.rx.unclaimed + 1)
                record := { judged with fault := some .unclaimed, mailbox := none, matchKind := none } }
            rep := s.rep.handOver (fault .unclaimed length none) })
      ∧ (∀ m k, st.toNat = w.owner → length ≤ 512 → s.sort port st = some (m, k) →
        (8 ≤ (s.mailbox m).records.length →
          Gives c s
            { s.modMailbox m fun b => { b with dropped := min 65535 (b.dropped + 1) } with
              rx :=
                { s.rx with
                  state := .drain
                  record := { judged with fault := some .mailboxFull, mailbox := some m, matchKind := some k } }
              rep := s.rep.handOver (.mailDropped m 1 0 w.owner port s.line.cycleCounter) })
        ∧ ((s.mailbox m).records.length < 8 → s.free < blocks →
          Gives c s
            { s.modMailbox m fun b => { b with dropped := min 65535 (b.dropped + 1) } with
              rx :=
                { s.rx with
                  state := .drain
                  record := { judged with fault := some .noBuffer, mailbox := some m, matchKind := some k } }
              rep := s.rep.handOver (.mailDropped m 0 1 w.owner port s.line.cycleCounter) })
        ∧ ((s.mailbox m).records.length < 8 → blocks ≤ s.free →
          Gives c s
            { s with
              free := s.free - blocks
              rx :=
                { s.rx with
                  state := if length = 0 then .check else .body
                  record := { judged with mailbox := some m, matchKind := some k } } })))

/-- R144: the sort takes the enabled filters in ascending mailbox number, and the first that accepts wins, with the match kind of the
first test of the table that succeeds; none when no enabled filter accepts. A filter with a station restriction accepts that
station's packets only, whichever test succeeds. -/
def Obligations.SortTakesFirstFilter : Prop :=
  (∀ (f : Filter) (p st : Octet),
    let allowed := f.enabled = true ∧ (f.restriction = none ∨ f.restriction = some st.toNat)
    let general := f.general = true ∧ p = 0xFE#8
    (¬allowed → f.accepts p st = none)
    ∧ (allowed → general → f.accepts p st = some .general)
    ∧ (allowed → ¬general → f.mode = .either →
      f.accepts p st = if p = f.portA then some .a else if p = f.portB then some .b else none)
    ∧ (allowed → ¬general → f.mode = .masked →
      ((∀ i, i < 8 → f.portB.getLsbD i = false → p.getLsbD i = f.portA.getLsbD i) → f.accepts p st = some .masked)
      ∧ ((∃ i, i < 8 ∧ f.portB.getLsbD i = false ∧ p.getLsbD i ≠ f.portA.getLsbD i) → f.accepts p st = none))
    ∧ (allowed → ¬general → f.mode = .all → f.accepts p st = some .all))
  ∧ ∀ (s : State) (p st : Octet),
    (∀ m k, m < s.mailboxes.length → (s.mailbox m).filter.accepts p st = some k →
      (∀ j, j < m → (s.mailbox j).filter.accepts p st = none) → s.sort p st = some (m, k))
    ∧ ((∀ m, m < s.mailboxes.length → (s.mailbox m).filter.accepts p st = none) → s.sort p st = none)

/-- R101, R146 to R149, R151: body octets are stored and checked; the second check octet stores the packet in its mailbox, with
MAIL_WAITING when it was empty, or rejects it BAD_CHECK; a drained packet is counted to its end; each ends the window COMPLETE.
The model's readings it rests on: the flag of a cycle in progress (log entry 3) and a field whose first octet has come (log
entry 19). -/
def Obligations.BodyAndCheckDecidePacket : Prop :=
  ∀ (s : State) (slot : Nat) (octet : Octet) (w : Window),
    s.pin = .high → s.line.cycleOpen = true → s.line.state = .running → 5 ≤ slot →
    (s.line.sampleUp[slot - 5]?).join = some (.lane w.lane) → slot ∈ w.upSet → s.window.window = some w →
    w.packetStarted = true →
    let c : Instr := .windowUpOctet slot octet
    let r := s.rx.record
    let closed : WindowUnit := { s.window with window := none }
    (∀ length, r.length = some length → s.rx.state = .body →
      Gives c s
        { s with
          rx :=
            { s.rx with
              state := if r.taken + 1 = length + 4 then .check else .body
              record := { r with taken := r.taken + 1, check := crcOctet r.check octet, body := r.body ++ [octet] } } })
    ∧ (s.rx.state = .check → r.checkHigh = none →
      Gives c s
        { s with rx := { s.rx with record := { r with taken := r.taken + 1, checkHigh := some octet } } })
    ∧ (∀ hi port st length m k, s.rx.state = .check → r.checkHigh = some hi → r.port = some port →
      r.station = some st → r.length = some length → r.mailbox = some m → r.matchKind = some k →
      let received := word16 hi octet
      (received = r.check →
        Gives c s
          { s.modMailbox m fun b =>
              { b with
                records := b.records ++
                  [{ source := st.toNat, port := port, matchKind := k, length := length, stamp := r.stamp
                     body := r.body }] } with
            window := closed
            rx := { s.rx with state := .idle, record := .empty, stored := min 65535 (s.rx.stored + 1) }
            rep := if (s.mailbox m).records = [] then
                s.rep.handOver (.mailWaiting m st.toNat port length r.stamp)
              else s.rep })
      ∧ (received ≠ r.check →
        Gives c s
          { s.modStation w.owner fun t => { t with badCheckPackets := min 65535 (t.badCheckPackets + 1) } with
            window := closed
            free := s.free + max 1 ((length + 31) / 32)
            rx := { s.rx with state := .idle, record := .empty, badCheck := min 65535 (s.rx.badCheck + 1) }
            rep := s.rep.handOver
              (.rxFault
                { fault := .badCheck, owner := w.owner, lane := w.lane, port := some port, length := some length
                  cyclesUsed := w.cyclesUsed, slotLost := none, stationField := none
                  checks := some (received, r.check), cycle := s.line.cycleCounter }) }))
    ∧ (∀ length, r.length = some length → s.rx.state = .drain →
      (r.taken + 1 ≠ length + 6 →
        Gives c s { s with rx := { s.rx with record := { r with taken := r.taken + 1 } } })
      ∧ (r.taken + 1 = length + 6 →
        Gives c s { s with window := closed, rx := { s.rx with state := .idle, record := .empty } }))

/-- R152: MAILBOX.SET: the six fields take their place at once when all are in range; records and dropped count stay. R115,
R153: MAILBOX.TAKE: the oldest record leaves with its blocks and is carried in the reply; an empty mailbox answers "none". The
model's readings it rests on: taking a request (log entry 2). -/
def Obligations.MailboxSetAndTake : Prop :=
  (∀ (s : State) (tag m enabled mode a b general restriction : Octet),
       CanTake s ⟨0x16#8, tag, [m, enabled, mode, a, b, general, restriction]⟩ →
       let c : Instr := .mailboxSet tag [m, enabled, mode, a, b, general, restriction]
       let ok := m.toNat ≤ 7 ∧ enabled.toNat ≤ 1 ∧ mode.toNat ≤ 2 ∧ a ≠ 0xFF#8 ∧ b ≠ 0xFF#8 ∧ general.toNat ≤ 1
         ∧ (restriction = 0xFF#8 ∨ (1 ≤ restriction.toNat ∧ restriction.toNat ≤ 30))
       (¬ok → Gives c s (s.replied 0x96#8 tag [0x01#8]))
       ∧ (ok → Gives c s
         ((s.modMailbox m.toNat fun x =>
             { x with
               filter :=
                 { enabled := enabled == 0x01#8
                   mode := if mode = 0x00#8 then .either else if mode = 0x01#8 then .masked else .all
                   portA := a, portB := b, general := general == 0x01#8
                   restriction := if restriction = 0xFF#8 then none else some restriction.toNat } }).replied
           0x96#8 tag
           ([0x00#8, enabled, mode, a, b, general, restriction]
             ++ [BitVec.ofNat 8 (s.mailbox m.toNat).records.length, BitVec.ofNat 8 ((s.mailbox m.toNat).dropped / 256),
               BitVec.ofNat 8 (s.mailbox m.toNat).dropped]))))
    ∧ (∀ (s : State) (tag m : Octet), CanTake s ⟨0x17#8, tag, [m]⟩ →
       let two := fun (n : Nat) => [BitVec.ofNat 8 (n / 256), BitVec.ofNat 8 n]
       let dropped := two (s.mailbox m.toNat).dropped
       (8 ≤ m.toNat → Gives (.mailboxTake tag [m]) s (s.replied 0x97#8 tag [0x01#8]))
       ∧ (m.toNat < 8 → (s.mailbox m.toNat).records = [] →
         Gives (.mailboxTake tag [m]) s (s.replied 0x97#8 tag ([0x00#8, 0x00#8] ++ dropped ++ [0x00#8])))
       ∧ (∀ r rest, m.toNat < 8 → (s.mailbox m.toNat).records = r :: rest →
         let kind : Octet := match r.matchKind with
           | .a => 0#8 | .b => 1#8 | .masked => 2#8 | .general => 3#8 | .all => 4#8
         Gives (.mailboxTake tag [m]) s
           (({ s.modMailbox m.toNat fun b => { b with records := b.records.tail } with
               free := s.free + max 1 ((r.length + 31) / 32) } : State).replied
             0x97#8 tag
             ([0x00#8, BitVec.ofNat 8 rest.length] ++ dropped ++ [0x01#8, BitVec.ofNat 8 r.source, r.port, kind]
               ++ two r.length ++ two r.stamp.toNat ++ r.body))))

/-- R154: MAILBOX.FLUSH: every record leaves and their blocks are free; filter, dropped count, the packet in progress and the
unsent reports stay. The model's readings it rests on: taking a request (log entry 2). -/
def Obligations.MailboxFlushEmpties : Prop :=
  ∀ (s : State) (tag m : Octet), CanTake s ⟨0x18#8, tag, [m]⟩ →
    (8 ≤ m.toNat → Gives (.mailboxFlush tag [m]) s (s.replied 0x98#8 tag [0x01#8]))
    ∧ (m.toNat < 8 → Gives (.mailboxFlush tag [m]) s
      (({ s.modMailbox m.toNat fun b => { b with records := [] } with
          free := s.free + (((s.mailbox m.toNat).records.map fun r => max 1 ((r.length + 31) / 32)).sum) } :
          State).replied
        0x98#8 tag [0x00#8, BitVec.ofNat 8 (s.mailbox m.toNat).records.length]))

/-! ## Sending packets (chapters 6 and 7) -/

/-- R109, R110, R121, R122: PACKET.SEND: the checks in their order, the pool's last, then the packet takes its blocks and joins
its lane's queue, READY when whole and FILLING otherwise, with the next handle: the first number after the last handle given,
wrapping from 65535 to 1, that names no live packet. The model's readings it rests on: taking a request (log entry 2) and the
handle counter (log entry 24). -/
def Obligations.PacketSendQueuesPacket : Prop :=
  ∀ (s : State) (tag l dest port hi lo : Octet) (segment : List Octet), segment.length ≤ 512 →
    CanTake s ⟨0x11#8, tag, [l, dest, port, hi, lo] ++ segment⟩ →
    let c : Instr := .packetSend tag ([l, dest, port, hi, lo] ++ segment)
    let declared := hi.toNat * 256 + lo.toNat
    let blocks := max 1 ((declared + 31) / 32)
    let ok := l.toNat ≤ 3 ∧ (1 ≤ dest.toNat ∧ dest.toNat ≤ 31) ∧ port ≠ 0xFF#8 ∧ declared ≤ 512
      ∧ segment.length ≤ declared
    let depth := (s.lane l.toNat).queue.length
    let reserve := s.line.settings.receiveReserve
    (¬ok → Gives c s (s.replied 0x91#8 tag [0x01#8]))
    ∧ (ok → 16 ≤ depth → Gives c s (s.replied 0x91#8 tag [0x04#8, 0x00#8]))
    ∧ (ok → depth < 16 → 96 ≤ s.placesHeld → Gives c s (s.replied 0x91#8 tag [0x04#8, 0x03#8]))
    ∧ (ok → depth < 16 → s.placesHeld < 96 → s.free < blocks + reserve →
      Gives c s
        (s.replied 0x91#8 tag
          [0x05#8, BitVec.ofNat 8 blocks, BitVec.ofNat 8 (s.free / 256), BitVec.ofNat 8 s.free,
            BitVec.ofNat 8 reserve]))
    ∧ (ok → depth < 16 → s.placesHeld < 96 → blocks + reserve ≤ s.free →
      let whole := segment.length = declared
      ∃ h, (1 ≤ h ∧ h ≤ 65535) ∧ h ∉ s.livePackets
        ∧ (let after := fun (k : Nat) => if k < 65535 then k + 1 else 1
           ∃ n, h = Nat.iterate after (n + 1) s.lastPacketHandle
             ∧ ∀ m, m < n → Nat.iterate after (m + 1) s.lastPacketHandle ∈ s.livePackets)
        ∧ Gives c s
          (({ s.modLane l.toNat fun x =>
                { x with
                  queue := x.queue ++
                    [{ handle := h, destination := dest.toNat, port := port, declared := declared, body := segment
                       position := 0, state := if whole then .ready else .filling, abortReason := none
                       bodySent := 0 }] } with
              free := s.free - blocks, lastPacketHandle := h } : State).replied
            0x91#8 tag
            [0x00#8, BitVec.ofNat 8 (h / 256), BitVec.ofNat 8 h, if whole then 0x01#8 else 0x00#8]))

/-- R123: PACKET.ADD, by the state of the packet that its handle names; the queued packet is the one with that handle, since
live handles are distinct. The model's readings it rests on: taking a request (log entry 2). -/
def Obligations.PacketAddAppendsSegment : Prop :=
  ∀ (s : State) (tag hi lo : Octet) (segment : List Octet), segment.length ≤ 512 →
    CanTake s ⟨0x12#8, tag, [hi, lo] ++ segment⟩ → Shape s → LiveHandles s →
    let c : Instr := .packetAdd tag ([hi, lo] ++ segment)
    let h := hi.toNat * 256 + lo.toNat
    let reason : Option PacketReason → Octet := fun r => match r with
      | none => 0xFF#8 | some .cancel => 0#8 | some .laneReset => 1#8 | some .underrun => 2#8 | some .slotsLost => 3#8
      | some .lineStopped => 4#8
    (∀ l A p B, l < 4 → (s.lane l).queue = A ++ p :: B → p.handle = h →
      (p.state = .aborting →
        Gives c s (s.replied 0x92#8 tag [0x09#8, 0x00#8, 0xFF#8, reason p.abortReason]))
      ∧ (p.state = .ready ∨ (p.state = .sending ∧ p.body.length = p.declared) →
        Gives c s (s.replied 0x92#8 tag [0x02#8]))
      ∧ (p.state = .filling ∨ (p.state = .sending ∧ p.body.length ≠ p.declared) →
        (segment = [] ∨ p.declared < p.body.length + segment.length →
          Gives c s (s.replied 0x92#8 tag [0x01#8]))
        ∧ (segment ≠ [] → p.body.length + segment.length ≤ p.declared →
          let n := p.body.length + segment.length
          let state : PacketState := if p.state = .filling ∧ n = p.declared then .ready else p.state
          Gives c s
            ((s.modLane l fun x =>
                { x with queue := A ++ { p with body := p.body ++ segment, state := state } :: B }).replied
              0x92#8 tag
              [0x00#8, BitVec.ofNat 8 (n / 256), BitVec.ofNat 8 n,
                match state with | .filling => 0#8 | .ready => 1#8 | .sending => 2#8 | .aborting => 3#8]))))
    ∧ ((∀ l, l < 4 → ∀ p ∈ (s.lane l).queue, p.handle ≠ h) →
      (∀ d, .packet d ∈ s.rep.entries → d.handle = h →
        Gives c s
          (s.replied 0x92#8 tag
            [0x09#8, 0x01#8, match d.outcome with | .sent => 0#8 | .cancelled => 1#8 | .aborted => 2#8,
              reason d.reason]))
      ∧ ((∀ d, .packet d ∈ s.rep.entries → d.handle ≠ h) → Gives c s (s.replied 0x92#8 tag [0x08#8])))

/-- R113, R131, R136, R137: PACKET.CANCEL, by the state of the packet that its handle names: a packet not started finishes
CANCELLED at once, one SENDING becomes ABORTING with its engine. The model's readings it rests on: taking a request (log entry
2). -/
def Obligations.PacketCancelStopsPacket : Prop :=
  ∀ (s : State) (tag hi lo : Octet), CanTake s ⟨0x13#8, tag, [hi, lo]⟩ → Shape s → LiveHandles s →
    let c : Instr := .packetCancel tag [hi, lo]
    let h := hi.toNat * 256 + lo.toNat
    let reason : Option PacketReason → Octet := fun r => match r with
      | none => 0xFF#8 | some .cancel => 0#8 | some .laneReset => 1#8 | some .underrun => 2#8 | some .slotsLost => 3#8
      | some .lineStopped => 4#8
    (∀ l A p B, l < 4 → (s.lane l).queue = A ++ p :: B → p.handle = h →
      (p.state = .filling ∨ p.state = .ready →
        Gives c s
          (({ s.modLane l fun x => { x with queue := A ++ B } with
              free := s.free + max 1 ((p.declared + 31) / 32)
              rep := ReportUnit.transfer s.line.cycleCounter
                { s.rep with
                  entries := s.rep.entries ++
                    [.packet
                      { handle := h, lane := l, destination := p.destination, port := p.port, declared := p.declared
                        outcome := .cancelled, reason := some .cancel, bodySent := 0, received := p.body.length
                        cycle := s.line.cycleCounter }] } } : State).replied
            0x93#8 tag
            [0x00#8, if p.state = .filling then 0x00#8 else 0x01#8, BitVec.ofNat 8 (p.body.length / 256),
              BitVec.ofNat 8 p.body.length]))
      ∧ (p.state = .sending →
        Gives c s
          ((s.modLane l fun x =>
              { x with
                engine := .aborting
                queue := A ++
                  { p with
                    state := .aborting, abortReason := some .cancel, bodySent := min (p.position - 4) p.declared }
                  :: B }).replied
            0x93#8 tag [0x00#8, 0x02#8, BitVec.ofNat 8 (p.position / 256), BitVec.ofNat 8 p.position]))
      ∧ (p.state = .aborting →
        Gives c s (s.replied 0x93#8 tag [0x09#8, 0x00#8, 0xFF#8, reason p.abortReason])))
    ∧ ((∀ l, l < 4 → ∀ p ∈ (s.lane l).queue, p.handle ≠ h) →
      (∀ d, .packet d ∈ s.rep.entries → d.handle = h →
        Gives c s
          (s.replied 0x93#8 tag
            [0x09#8, 0x01#8, match d.outcome with | .sent => 0#8 | .cancelled => 1#8 | .aborted => 2#8,
              reason d.reason]))
      ∧ ((∀ d, .packet d ∈ s.rep.entries → d.handle ≠ h) → Gives c s (s.replied 0x93#8 tag [0x08#8])))

/-- R113, R133, R136, R137: LANE.RESET: every packet of the lane finishes, oldest first, ABORTED when it had started and
CANCELLED when not, with reason LANE_RESET; the engine becomes IDLE. The model's readings it rests on: taking a request (log
entry 2), the gap count after a GAP (log entry 16) and the running check between packets (log entry 21). -/
def Obligations.LaneResetFinishesQueue : Prop :=
  ∀ (s : State) (tag l : Octet), CanTake s ⟨0x14#8, tag, [l]⟩ →
    let q := (s.lane l.toNat).queue
    let started := fun (p : Packet) => decide (p.state = .sending ∨ p.state = .aborting)
    let done := fun (p : Packet) => Completion.packet
      { handle := p.handle, lane := l.toNat, destination := p.destination, port := p.port, declared := p.declared
        outcome := if started p = true then .aborted else .cancelled, reason := some .laneReset
        bodySent :=
          if p.state = .sending then min (p.position - 4) p.declared
          else if p.state = .aborting then p.bodySent else 0
        received := p.body.length, cycle := s.line.cycleCounter }
    (4 ≤ l.toNat → Gives (.laneReset tag [l]) s (s.replied 0x94#8 tag [0x01#8]))
    ∧ (l.toNat < 4 →
      Gives (.laneReset tag [l]) s
        (({ s.modLane l.toNat fun x => { x with queue := [], engine := .idle, activeSet := [], gapCount := 0 } with
            free := s.free + (q.map fun p => max 1 ((p.declared + 31) / 32)).sum
            rep := q.foldl
              (fun rep p => ReportUnit.transfer s.line.cycleCounter { rep with entries := rep.entries ++ [done p] })
              s.rep } : State).replied
          0x94#8 tag
          [0x00#8, BitVec.ofNat 8 (q.countP started), BitVec.ofNat 8 (q.countP fun p => !started p)]))

/-- R4, R119, R126 to R130, R136, R137: the turn of a down slot sampled to a lane: FFh from an IDLE engine, one in GAP (which
counts it) and outside the active set; else the octet of the packet at its position, the abort fill, or the first fill octet at
an underrun; the last check octet finishes the packet and the engine goes to GAP. The model's readings it rests on: the flag of
a cycle in progress (log entry 3), the driven octets (log entry 4), a command that is no event (log entry 11), the gap count
after a GAP (log entry 16) and the running check between packets (log entry 21). -/
def Obligations.LaneTurnSendsOctet : Prop :=
  ∀ (s : State) (slot : Nat),
    let c : Instr := .laneDownSlotTurn slot
    let running := s.pin = .high ∧ s.line.cycleOpen = true ∧ s.line.state = .running ∧ 5 ≤ slot
    let sampled := (s.line.sampleDown[slot - 5]?).join
    (¬(running ∧ ∃ l, sampled = some (.lane l)) → exec c s = .next s)
    ∧ (∀ l, running → sampled = some (.lane l) →
      let x := s.lane l
      let drives := fun (o : Octet) (y : Lane) =>
        ({ s.modLane l fun _ => y with line := { s.line with driven := s.line.driven.set slot o } } : State)
      (x.engine = .idle → Gives c s (drives 0xFF#8 x))
      ∧ (x.engine = .gap → Gives c s (drives 0xFF#8 { x with gapCount := min 2 (x.gapCount + 1) }))
      ∧ (x.engine = .sending ∨ x.engine = .aborting → slot ∉ x.activeSet → Gives c s (drives 0xFF#8 x))
      ∧ (∀ p rest, x.engine = .sending ∨ x.engine = .aborting → slot ∈ x.activeSet → x.queue = p :: rest →
        let header : List Octet :=
          [p.port, BitVec.ofNat 8 p.destination, BitVec.ofNat 8 (p.declared / 256), BitVec.ofNat 8 p.declared]
        let moved : Packet := { p with position := p.position + 1 }
        let checked := fun (o : Octet) (e : EngineState) (p' : Packet) =>
          Gives c s
            (drives o { x with engine := e, queue := p' :: rest, runningCheck := crcOctet x.runningCheck o })
        let finishes := fun (o : Octet) (outcome : PacketOutcome) (reason : Option PacketReason) (sent : Nat) =>
          (∀ q ∈ rest, q.handle ≠ p.handle) →
          Gives c s
            { drives o { x with engine := .gap, activeSet := [], gapCount := 0, queue := rest } with
              free := s.free + max 1 ((p.declared + 31) / 32)
              rep := ReportUnit.transfer s.line.cycleCounter
                { s.rep with
                  entries := s.rep.entries ++
                    [.packet
                      { handle := p.handle, lane := l, destination := p.destination, port := p.port
                        declared := p.declared, outcome := outcome, reason := reason, bodySent := sent
                        received := p.body.length, cycle := s.line.cycleCounter }] } }
        (∀ o, header[p.position]? = some o → checked o x.engine moved)
        ∧ (x.engine = .sending → 4 ≤ p.position → p.position < p.declared + 4 →
          (∀ o, p.body[p.position - 4]? = some o → checked o .sending moved)
          ∧ (p.body[p.position - 4]? = none →
            checked 0xFF#8 .aborting
              { moved with
                state := .aborting, abortReason := some .underrun, bodySent := min (p.position - 4) p.declared }))
        ∧ (x.engine = .aborting → 4 ≤ p.position → p.position < p.declared + 4 → checked 0xFF#8 .aborting moved)
        ∧ (x.engine = .sending → p.position = p.declared + 4 →
          Gives c s (drives (hi8 x.runningCheck) { x with queue := moved :: rest }))
        ∧ (x.engine = .aborting → p.position = p.declared + 4 →
          Gives c s (drives (~~~hi8 x.runningCheck) { x with queue := moved :: rest }))
        ∧ (x.engine = .sending → p.position = p.declared + 5 → finishes (lo8 x.runningCheck) .sent none p.declared)
        ∧ (x.engine = .aborting → p.state = .aborting → p.position = p.declared + 5 →
          finishes (~~~lo8 x.runningCheck) .aborted p.abortReason p.bodySent)))

/-! ## What every step keeps -/

/-- Every table keeps its size (R22, R65, R79). -/
def Obligations.StepKeepsShape : Prop :=
  ∀ s t : State, Shape s → step s = .next t → Shape t

/-- Live handles stay distinct (R50, R121), at most 96 Completion List places are held (R179), and every note is for a station
with an address from 1 to 30 (R49, R51). -/
def Obligations.StepKeepsLiveHandles : Prop :=
  ∀ s t : State, LiveHandles s → step s = .next t → LiveHandles t

/-- Every block of the pool stays in exactly one place (R108). -/
def Obligations.StepKeepsPoolTotal : Prop :=
  ∀ s t : State, Shape s → LiveHandles s → PoolSound s → step s = .next t → PoolSound t

/-- The bounds and the numbers of the report unit, and the transfer of R180, between events (R175, R180, R182, R184). -/
def Obligations.StepKeepsReportsInOrder : Prop :=
  ∀ s t : State, ReportsSound s → step s = .next t → ReportsSound t

/-- The host link between events (R163, R164, R166, R168, R169, R171, R172): its bounds, an idle transmitter that has nothing
to send unless the receive line or the RESET pin is low (the model's reading of the low pin, log entry 10), and a held request
whose reply has not gone out. That the character in progress of a frame that was cut off stands only while the pin is high and
the receive line is low is the model's choice: no rule says when that character is over (log entry 29). -/
def Obligations.StepKeepsLinkSettled : Prop :=
  ∀ s t : State, LinkSound s → step s = .next t → LinkSound t

/-- The transmit queues and the lane engines agree (R120, R124). The model's readings it rests on: the gap count after a GAP
(log entry 16). -/
def Obligations.StepKeepsLanesSound : Prop :=
  ∀ s t : State, LiveHandles s → LanesSound s → step s = .next t → LanesSound t

/-- The Window Queue and the open window agree with the stations and the line (R90, R93, R97, R104). -/
def Obligations.StepKeepsWindowSound : Prop :=
  ∀ s t : State, WindowSound s → step s = .next t → WindowSound t

/-- The Slot Map, the Reclaim List and the circuits agree (R65, R69, R79, R82). -/
def Obligations.StepKeepsMapSound : Prop :=
  ∀ s t : State, Shape s → MapSound s → step s = .next t → MapSound t

/-- The invariants above hold after reset, with the model's own reset values (log entries 5, 8, 9, 10, 29). -/
def Obligations.InvariantsHoldAtReset : Prop :=
  Shape State.reset ∧ LiveHandles State.reset ∧ PoolSound State.reset ∧ ReportsSound State.reset
    ∧ LinkSound State.reset ∧ LanesSound State.reset ∧ WindowSound State.reset ∧ MapSound State.reset

end
end

