-- ==== Sys2Proof/Laws/State.lean ====
section
/-! SUPPORT. What each update leaves unchanged, field by field, and what it makes of the field it changes. -/

namespace Sys2Proof.Machine

variable (s : State)

/-! ## modStation -/

@[simp] theorem State.modStation_line (a : Nat) (f : Station → Station) :
    (s.modStation a f).line = s.line := by cases a <;> rfl
@[simp] theorem State.modStation_notes (a : Nat) (f : Station → Station) :
    (s.modStation a f).notes = s.notes := by cases a <;> rfl
@[simp] theorem State.modStation_slots (a : Nat) (f : Station → Station) :
    (s.modStation a f).slots = s.slots := by cases a <;> rfl
@[simp] theorem State.modStation_circuits (a : Nat) (f : Station → Station) :
    (s.modStation a f).circuits = s.circuits := by cases a <;> rfl
@[simp] theorem State.modStation_lanes (a : Nat) (f : Station → Station) :
    (s.modStation a f).lanes = s.lanes := by cases a <;> rfl
@[simp] theorem State.modStation_lastPacketHandle (a : Nat) (f : Station → Station) :
    (s.modStation a f).lastPacketHandle = s.lastPacketHandle := by cases a <;> rfl
@[simp] theorem State.modStation_window (a : Nat) (f : Station → Station) :
    (s.modStation a f).window = s.window := by cases a <;> rfl
@[simp] theorem State.modStation_rx (a : Nat) (f : Station → Station) :
    (s.modStation a f).rx = s.rx := by cases a <;> rfl
@[simp] theorem State.modStation_mailboxes (a : Nat) (f : Station → Station) :
    (s.modStation a f).mailboxes = s.mailboxes := by cases a <;> rfl
@[simp] theorem State.modStation_free (a : Nat) (f : Station → Station) :
    (s.modStation a f).free = s.free := by cases a <;> rfl
@[simp] theorem State.modStation_rep (a : Nat) (f : Station → Station) :
    (s.modStation a f).rep = s.rep := by cases a <;> rfl
@[simp] theorem State.modStation_link (a : Nat) (f : Station → Station) :
    (s.modStation a f).link = s.link := by cases a <;> rfl
@[simp] theorem State.modStation_pin (a : Nat) (f : Station → Station) :
    (s.modStation a f).pin = s.pin := by cases a <;> rfl
@[simp] theorem State.modStation_choices (a : Nat) (f : Station → Station) :
    (s.modStation a f).choices = s.choices := by cases a <;> rfl
@[simp] theorem State.modStation_pending (a : Nat) (f : Station → Station) :
    (s.modStation a f).pending = s.pending := by cases a <;> rfl

/-! ## modLane -/

@[simp] theorem State.modLane_line (l : Nat) (f : Lane → Lane) : (s.modLane l f).line = s.line := rfl
@[simp] theorem State.modLane_poll (l : Nat) (f : Lane → Lane) : (s.modLane l f).poll = s.poll := rfl
@[simp] theorem State.modLane_notes (l : Nat) (f : Lane → Lane) : (s.modLane l f).notes = s.notes := rfl
@[simp] theorem State.modLane_slots (l : Nat) (f : Lane → Lane) : (s.modLane l f).slots = s.slots := rfl
@[simp] theorem State.modLane_circuits (l : Nat) (f : Lane → Lane) : (s.modLane l f).circuits = s.circuits := rfl
@[simp] theorem State.modLane_lastPacketHandle (l : Nat) (f : Lane → Lane) :
    (s.modLane l f).lastPacketHandle = s.lastPacketHandle := rfl
@[simp] theorem State.modLane_window (l : Nat) (f : Lane → Lane) : (s.modLane l f).window = s.window := rfl
@[simp] theorem State.modLane_rx (l : Nat) (f : Lane → Lane) : (s.modLane l f).rx = s.rx := rfl
@[simp] theorem State.modLane_mailboxes (l : Nat) (f : Lane → Lane) : (s.modLane l f).mailboxes = s.mailboxes := rfl
@[simp] theorem State.modLane_free (l : Nat) (f : Lane → Lane) : (s.modLane l f).free = s.free := rfl
@[simp] theorem State.modLane_rep (l : Nat) (f : Lane → Lane) : (s.modLane l f).rep = s.rep := rfl
@[simp] theorem State.modLane_link (l : Nat) (f : Lane → Lane) : (s.modLane l f).link = s.link := rfl
@[simp] theorem State.modLane_pin (l : Nat) (f : Lane → Lane) : (s.modLane l f).pin = s.pin := rfl
@[simp] theorem State.modLane_choices (l : Nat) (f : Lane → Lane) : (s.modLane l f).choices = s.choices := rfl
@[simp] theorem State.modLane_pending (l : Nat) (f : Lane → Lane) : (s.modLane l f).pending = s.pending := rfl

/-! ## setCircuit -/

@[simp] theorem State.setCircuit_line (n : Nat) (x : Option Circuit) : (s.setCircuit n x).line = s.line := rfl
@[simp] theorem State.setCircuit_poll (n : Nat) (x : Option Circuit) : (s.setCircuit n x).poll = s.poll := rfl
@[simp] theorem State.setCircuit_notes (n : Nat) (x : Option Circuit) : (s.setCircuit n x).notes = s.notes := rfl
@[simp] theorem State.setCircuit_slots (n : Nat) (x : Option Circuit) : (s.setCircuit n x).slots = s.slots := rfl
@[simp] theorem State.setCircuit_lanes (n : Nat) (x : Option Circuit) : (s.setCircuit n x).lanes = s.lanes := rfl
@[simp] theorem State.setCircuit_lastPacketHandle (n : Nat) (x : Option Circuit) :
    (s.setCircuit n x).lastPacketHandle = s.lastPacketHandle := rfl
@[simp] theorem State.setCircuit_window (n : Nat) (x : Option Circuit) : (s.setCircuit n x).window = s.window := rfl
@[simp] theorem State.setCircuit_rx (n : Nat) (x : Option Circuit) : (s.setCircuit n x).rx = s.rx := rfl
@[simp] theorem State.setCircuit_mailboxes (n : Nat) (x : Option Circuit) :
    (s.setCircuit n x).mailboxes = s.mailboxes := rfl
@[simp] theorem State.setCircuit_free (n : Nat) (x : Option Circuit) : (s.setCircuit n x).free = s.free := rfl
@[simp] theorem State.setCircuit_rep (n : Nat) (x : Option Circuit) : (s.setCircuit n x).rep = s.rep := rfl
@[simp] theorem State.setCircuit_link (n : Nat) (x : Option Circuit) : (s.setCircuit n x).link = s.link := rfl
@[simp] theorem State.setCircuit_pin (n : Nat) (x : Option Circuit) : (s.setCircuit n x).pin = s.pin := rfl
@[simp] theorem State.setCircuit_choices (n : Nat) (x : Option Circuit) :
    (s.setCircuit n x).choices = s.choices := rfl
@[simp] theorem State.setCircuit_pending (n : Nat) (x : Option Circuit) :
    (s.setCircuit n x).pending = s.pending := rfl

/-! ## modMailbox -/

@[simp] theorem State.modMailbox_line (m : Nat) (f : Mailbox → Mailbox) : (s.modMailbox m f).line = s.line := rfl
@[simp] theorem State.modMailbox_poll (m : Nat) (f : Mailbox → Mailbox) : (s.modMailbox m f).poll = s.poll := rfl
@[simp] theorem State.modMailbox_notes (m : Nat) (f : Mailbox → Mailbox) : (s.modMailbox m f).notes = s.notes := rfl
@[simp] theorem State.modMailbox_slots (m : Nat) (f : Mailbox → Mailbox) : (s.modMailbox m f).slots = s.slots := rfl
@[simp] theorem State.modMailbox_circuits (m : Nat) (f : Mailbox → Mailbox) :
    (s.modMailbox m f).circuits = s.circuits := rfl
@[simp] theorem State.modMailbox_lanes (m : Nat) (f : Mailbox → Mailbox) : (s.modMailbox m f).lanes = s.lanes := rfl
@[simp] theorem State.modMailbox_lastPacketHandle (m : Nat) (f : Mailbox → Mailbox) :
    (s.modMailbox m f).lastPacketHandle = s.lastPacketHandle := rfl
@[simp] theorem State.modMailbox_window (m : Nat) (f : Mailbox → Mailbox) :
    (s.modMailbox m f).window = s.window := rfl
@[simp] theorem State.modMailbox_rx (m : Nat) (f : Mailbox → Mailbox) : (s.modMailbox m f).rx = s.rx := rfl
@[simp] theorem State.modMailbox_free (m : Nat) (f : Mailbox → Mailbox) : (s.modMailbox m f).free = s.free := rfl
@[simp] theorem State.modMailbox_rep (m : Nat) (f : Mailbox → Mailbox) : (s.modMailbox m f).rep = s.rep := rfl
@[simp] theorem State.modMailbox_link (m : Nat) (f : Mailbox → Mailbox) : (s.modMailbox m f).link = s.link := rfl
@[simp] theorem State.modMailbox_pin (m : Nat) (f : Mailbox → Mailbox) : (s.modMailbox m f).pin = s.pin := rfl
@[simp] theorem State.modMailbox_choices (m : Nat) (f : Mailbox → Mailbox) :
    (s.modMailbox m f).choices = s.choices := rfl
@[simp] theorem State.modMailbox_pending (m : Nat) (f : Mailbox → Mailbox) :
    (s.modMailbox m f).pending = s.pending := rfl

/-! ## setEntry -/

@[simp] theorem State.setEntry_line (d : Dir) (slot : Nat) (e : Option MapEntry) :
    (s.setEntry d slot e).line = s.line := by cases d <;> rfl
@[simp] theorem State.setEntry_poll (d : Dir) (slot : Nat) (e : Option MapEntry) :
    (s.setEntry d slot e).poll = s.poll := by cases d <;> rfl
@[simp] theorem State.setEntry_notes (d : Dir) (slot : Nat) (e : Option MapEntry) :
    (s.setEntry d slot e).notes = s.notes := by cases d <;> rfl
@[simp] theorem State.setEntry_circuits (d : Dir) (slot : Nat) (e : Option MapEntry) :
    (s.setEntry d slot e).circuits = s.circuits := by cases d <;> rfl
@[simp] theorem State.setEntry_lanes (d : Dir) (slot : Nat) (e : Option MapEntry) :
    (s.setEntry d slot e).lanes = s.lanes := by cases d <;> rfl
@[simp] theorem State.setEntry_lastPacketHandle (d : Dir) (slot : Nat) (e : Option MapEntry) :
    (s.setEntry d slot e).lastPacketHandle = s.lastPacketHandle := by cases d <;> rfl
@[simp] theorem State.setEntry_window (d : Dir) (slot : Nat) (e : Option MapEntry) :
    (s.setEntry d slot e).window = s.window := by cases d <;> rfl
@[simp] theorem State.setEntry_rx (d : Dir) (slot : Nat) (e : Option MapEntry) :
    (s.setEntry d slot e).rx = s.rx := by cases d <;> rfl
@[simp] theorem State.setEntry_mailboxes (d : Dir) (slot : Nat) (e : Option MapEntry) :
    (s.setEntry d slot e).mailboxes = s.mailboxes := by cases d <;> rfl
@[simp] theorem State.setEntry_free (d : Dir) (slot : Nat) (e : Option MapEntry) :
    (s.setEntry d slot e).free = s.free := by cases d <;> rfl
@[simp] theorem State.setEntry_rep (d : Dir) (slot : Nat) (e : Option MapEntry) :
    (s.setEntry d slot e).rep = s.rep := by cases d <;> rfl
@[simp] theorem State.setEntry_link (d : Dir) (slot : Nat) (e : Option MapEntry) :
    (s.setEntry d slot e).link = s.link := by cases d <;> rfl
@[simp] theorem State.setEntry_pin (d : Dir) (slot : Nat) (e : Option MapEntry) :
    (s.setEntry d slot e).pin = s.pin := by cases d <;> rfl
@[simp] theorem State.setEntry_choices (d : Dir) (slot : Nat) (e : Option MapEntry) :
    (s.setEntry d slot e).choices = s.choices := by cases d <;> rfl
@[simp] theorem State.setEntry_pending (d : Dir) (slot : Nat) (e : Option MapEntry) :
    (s.setEntry d slot e).pending = s.pending := by cases d <;> rfl

/-! ## report -/

@[simp] theorem State.report_line (r : Report) : (s.report r).line = s.line := rfl
@[simp] theorem State.report_poll (r : Report) : (s.report r).poll = s.poll := rfl
@[simp] theorem State.report_notes (r : Report) : (s.report r).notes = s.notes := rfl
@[simp] theorem State.report_slots (r : Report) : (s.report r).slots = s.slots := rfl
@[simp] theorem State.report_circuits (r : Report) : (s.report r).circuits = s.circuits := rfl
@[simp] theorem State.report_lanes (r : Report) : (s.report r).lanes = s.lanes := rfl
@[simp] theorem State.report_lastPacketHandle (r : Report) : (s.report r).lastPacketHandle = s.lastPacketHandle := rfl
@[simp] theorem State.report_window (r : Report) : (s.report r).window = s.window := rfl
@[simp] theorem State.report_rx (r : Report) : (s.report r).rx = s.rx := rfl
@[simp] theorem State.report_mailboxes (r : Report) : (s.report r).mailboxes = s.mailboxes := rfl
@[simp] theorem State.report_free (r : Report) : (s.report r).free = s.free := rfl
@[simp] theorem State.report_link (r : Report) : (s.report r).link = s.link := rfl
@[simp] theorem State.report_pin (r : Report) : (s.report r).pin = s.pin := rfl
@[simp] theorem State.report_choices (r : Report) : (s.report r).choices = s.choices := rfl
@[simp] theorem State.report_pending (r : Report) : (s.report r).pending = s.pending := rfl

/-! ## complete -/

@[simp] theorem State.complete_line (e : Completion) : (s.complete e).line = s.line := rfl
@[simp] theorem State.complete_poll (e : Completion) : (s.complete e).poll = s.poll := rfl
@[simp] theorem State.complete_notes (e : Completion) : (s.complete e).notes = s.notes := rfl
@[simp] theorem State.complete_slots (e : Completion) : (s.complete e).slots = s.slots := rfl
@[simp] theorem State.complete_circuits (e : Completion) : (s.complete e).circuits = s.circuits := rfl
@[simp] theorem State.complete_lanes (e : Completion) : (s.complete e).lanes = s.lanes := rfl
@[simp] theorem State.complete_lastPacketHandle (e : Completion) :
    (s.complete e).lastPacketHandle = s.lastPacketHandle := rfl
@[simp] theorem State.complete_window (e : Completion) : (s.complete e).window = s.window := rfl
@[simp] theorem State.complete_rx (e : Completion) : (s.complete e).rx = s.rx := rfl
@[simp] theorem State.complete_mailboxes (e : Completion) : (s.complete e).mailboxes = s.mailboxes := rfl
@[simp] theorem State.complete_free (e : Completion) : (s.complete e).free = s.free := rfl
@[simp] theorem State.complete_link (e : Completion) : (s.complete e).link = s.link := rfl
@[simp] theorem State.complete_pin (e : Completion) : (s.complete e).pin = s.pin := rfl
@[simp] theorem State.complete_choices (e : Completion) : (s.complete e).choices = s.choices := rfl
@[simp] theorem State.complete_pending (e : Completion) : (s.complete e).pending = s.pending := rfl

/-! ## queueReply -/

@[simp] theorem State.queueReply_line (kind tag : Octet) (body : List Octet) :
    (s.queueReply kind tag body).line = s.line := rfl
@[simp] theorem State.queueReply_poll (kind tag : Octet) (body : List Octet) :
    (s.queueReply kind tag body).poll = s.poll := rfl
@[simp] theorem State.queueReply_notes (kind tag : Octet) (body : List Octet) :
    (s.queueReply kind tag body).notes = s.notes := rfl
@[simp] theorem State.queueReply_slots (kind tag : Octet) (body : List Octet) :
    (s.queueReply kind tag body).slots = s.slots := rfl
@[simp] theorem State.queueReply_circuits (kind tag : Octet) (body : List Octet) :
    (s.queueReply kind tag body).circuits = s.circuits := rfl
@[simp] theorem State.queueReply_lanes (kind tag : Octet) (body : List Octet) :
    (s.queueReply kind tag body).lanes = s.lanes := rfl
@[simp] theorem State.queueReply_lastPacketHandle (kind tag : Octet) (body : List Octet) :
    (s.queueReply kind tag body).lastPacketHandle = s.lastPacketHandle := rfl
@[simp] theorem State.queueReply_window (kind tag : Octet) (body : List Octet) :
    (s.queueReply kind tag body).window = s.window := rfl
@[simp] theorem State.queueReply_rx (kind tag : Octet) (body : List Octet) :
    (s.queueReply kind tag body).rx = s.rx := rfl
@[simp] theorem State.queueReply_mailboxes (kind tag : Octet) (body : List Octet) :
    (s.queueReply kind tag body).mailboxes = s.mailboxes := rfl
@[simp] theorem State.queueReply_free (kind tag : Octet) (body : List Octet) :
    (s.queueReply kind tag body).free = s.free := rfl
@[simp] theorem State.queueReply_rep (kind tag : Octet) (body : List Octet) :
    (s.queueReply kind tag body).rep = s.rep := rfl
@[simp] theorem State.queueReply_pin (kind tag : Octet) (body : List Octet) :
    (s.queueReply kind tag body).pin = s.pin := rfl
@[simp] theorem State.queueReply_choices (kind tag : Octet) (body : List Octet) :
    (s.queueReply kind tag body).choices = s.choices := rfl
@[simp] theorem State.queueReply_pending (kind tag : Octet) (body : List Octet) :
    (s.queueReply kind tag body).pending = s.pending := rfl

/-! ## replied -/

@[simp] theorem State.replied_line (kind tag : Octet) (body : List Octet) :
    (s.replied kind tag body).line = s.line := rfl
@[simp] theorem State.replied_poll (kind tag : Octet) (body : List Octet) :
    (s.replied kind tag body).poll = s.poll := rfl
@[simp] theorem State.replied_notes (kind tag : Octet) (body : List Octet) :
    (s.replied kind tag body).notes = s.notes := rfl
@[simp] theorem State.replied_slots (kind tag : Octet) (body : List Octet) :
    (s.replied kind tag body).slots = s.slots := rfl
@[simp] theorem State.replied_circuits (kind tag : Octet) (body : List Octet) :
    (s.replied kind tag body).circuits = s.circuits := rfl
@[simp] theorem State.replied_lanes (kind tag : Octet) (body : List Octet) :
    (s.replied kind tag body).lanes = s.lanes := rfl
@[simp] theorem State.replied_lastPacketHandle (kind tag : Octet) (body : List Octet) :
    (s.replied kind tag body).lastPacketHandle = s.lastPacketHandle := rfl
@[simp] theorem State.replied_window (kind tag : Octet) (body : List Octet) :
    (s.replied kind tag body).window = s.window := rfl
@[simp] theorem State.replied_rx (kind tag : Octet) (body : List Octet) : (s.replied kind tag body).rx = s.rx := rfl
@[simp] theorem State.replied_mailboxes (kind tag : Octet) (body : List Octet) :
    (s.replied kind tag body).mailboxes = s.mailboxes := rfl
@[simp] theorem State.replied_free (kind tag : Octet) (body : List Octet) :
    (s.replied kind tag body).free = s.free := rfl
@[simp] theorem State.replied_rep (kind tag : Octet) (body : List Octet) :
    (s.replied kind tag body).rep = s.rep := rfl
@[simp] theorem State.replied_pin (kind tag : Octet) (body : List Octet) :
    (s.replied kind tag body).pin = s.pin := rfl
@[simp] theorem State.replied_choices (kind tag : Octet) (body : List Octet) :
    (s.replied kind tag body).choices = s.choices := rfl
@[simp] theorem State.replied_pending (kind tag : Octet) (body : List Octet) :
    (s.replied kind tag body).pending = s.pending := rfl

/-! ## withFramer -/

@[simp] theorem State.withFramer_line (f : Framer) : (s.withFramer f).line = s.line := rfl
@[simp] theorem State.withFramer_poll (f : Framer) : (s.withFramer f).poll = s.poll := rfl
@[simp] theorem State.withFramer_notes (f : Framer) : (s.withFramer f).notes = s.notes := rfl
@[simp] theorem State.withFramer_slots (f : Framer) : (s.withFramer f).slots = s.slots := rfl
@[simp] theorem State.withFramer_circuits (f : Framer) : (s.withFramer f).circuits = s.circuits := rfl
@[simp] theorem State.withFramer_lanes (f : Framer) : (s.withFramer f).lanes = s.lanes := rfl
@[simp] theorem State.withFramer_lastPacketHandle (f : Framer) :
    (s.withFramer f).lastPacketHandle = s.lastPacketHandle := rfl
@[simp] theorem State.withFramer_window (f : Framer) : (s.withFramer f).window = s.window := rfl
@[simp] theorem State.withFramer_rx (f : Framer) : (s.withFramer f).rx = s.rx := rfl
@[simp] theorem State.withFramer_mailboxes (f : Framer) : (s.withFramer f).mailboxes = s.mailboxes := rfl
@[simp] theorem State.withFramer_free (f : Framer) : (s.withFramer f).free = s.free := rfl
@[simp] theorem State.withFramer_rep (f : Framer) : (s.withFramer f).rep = s.rep := rfl
@[simp] theorem State.withFramer_pin (f : Framer) : (s.withFramer f).pin = s.pin := rfl
@[simp] theorem State.withFramer_choices (f : Framer) : (s.withFramer f).choices = s.choices := rfl
@[simp] theorem State.withFramer_pending (f : Framer) : (s.withFramer f).pending = s.pending := rfl

/-! ## drive -/

@[simp] theorem State.drive_poll (slot : Nat) (o : Octet) : (s.drive slot o).poll = s.poll := rfl
@[simp] theorem State.drive_notes (slot : Nat) (o : Octet) : (s.drive slot o).notes = s.notes := rfl
@[simp] theorem State.drive_slots (slot : Nat) (o : Octet) : (s.drive slot o).slots = s.slots := rfl
@[simp] theorem State.drive_circuits (slot : Nat) (o : Octet) : (s.drive slot o).circuits = s.circuits := rfl
@[simp] theorem State.drive_lanes (slot : Nat) (o : Octet) : (s.drive slot o).lanes = s.lanes := rfl
@[simp] theorem State.drive_lastPacketHandle (slot : Nat) (o : Octet) :
    (s.drive slot o).lastPacketHandle = s.lastPacketHandle := rfl
@[simp] theorem State.drive_window (slot : Nat) (o : Octet) : (s.drive slot o).window = s.window := rfl
@[simp] theorem State.drive_rx (slot : Nat) (o : Octet) : (s.drive slot o).rx = s.rx := rfl
@[simp] theorem State.drive_mailboxes (slot : Nat) (o : Octet) : (s.drive slot o).mailboxes = s.mailboxes := rfl
@[simp] theorem State.drive_free (slot : Nat) (o : Octet) : (s.drive slot o).free = s.free := rfl
@[simp] theorem State.drive_rep (slot : Nat) (o : Octet) : (s.drive slot o).rep = s.rep := rfl
@[simp] theorem State.drive_link (slot : Nat) (o : Octet) : (s.drive slot o).link = s.link := rfl
@[simp] theorem State.drive_pin (slot : Nat) (o : Octet) : (s.drive slot o).pin = s.pin := rfl
@[simp] theorem State.drive_choices (slot : Nat) (o : Octet) : (s.drive slot o).choices = s.choices := rfl
@[simp] theorem State.drive_pending (slot : Nat) (o : Octet) : (s.drive slot o).pending = s.pending := rfl

/-! ## withRecord -/

@[simp] theorem State.withRecord_line (x : ReceiverState) (r : ReceiveRecord) :
    (s.withRecord x r).line = s.line := rfl
@[simp] theorem State.withRecord_poll (x : ReceiverState) (r : ReceiveRecord) :
    (s.withRecord x r).poll = s.poll := rfl
@[simp] theorem State.withRecord_notes (x : ReceiverState) (r : ReceiveRecord) :
    (s.withRecord x r).notes = s.notes := rfl
@[simp] theorem State.withRecord_slots (x : ReceiverState) (r : ReceiveRecord) :
    (s.withRecord x r).slots = s.slots := rfl
@[simp] theorem State.withRecord_circuits (x : ReceiverState) (r : ReceiveRecord) :
    (s.withRecord x r).circuits = s.circuits := rfl
@[simp] theorem State.withRecord_lanes (x : ReceiverState) (r : ReceiveRecord) :
    (s.withRecord x r).lanes = s.lanes := rfl
@[simp] theorem State.withRecord_lastPacketHandle (x : ReceiverState) (r : ReceiveRecord) :
    (s.withRecord x r).lastPacketHandle = s.lastPacketHandle := rfl
@[simp] theorem State.withRecord_window (x : ReceiverState) (r : ReceiveRecord) :
    (s.withRecord x r).window = s.window := rfl
@[simp] theorem State.withRecord_mailboxes (x : ReceiverState) (r : ReceiveRecord) :
    (s.withRecord x r).mailboxes = s.mailboxes := rfl
@[simp] theorem State.withRecord_free (x : ReceiverState) (r : ReceiveRecord) :
    (s.withRecord x r).free = s.free := rfl
@[simp] theorem State.withRecord_rep (x : ReceiverState) (r : ReceiveRecord) : (s.withRecord x r).rep = s.rep := rfl
@[simp] theorem State.withRecord_link (x : ReceiverState) (r : ReceiveRecord) :
    (s.withRecord x r).link = s.link := rfl
@[simp] theorem State.withRecord_pin (x : ReceiverState) (r : ReceiveRecord) : (s.withRecord x r).pin = s.pin := rfl
@[simp] theorem State.withRecord_choices (x : ReceiverState) (r : ReceiveRecord) :
    (s.withRecord x r).choices = s.choices := rfl
@[simp] theorem State.withRecord_pending (x : ReceiverState) (r : ReceiveRecord) :
    (s.withRecord x r).pending = s.pending := rfl

/-! ## idleReceiver -/

@[simp] theorem State.idleReceiver_line : (s.idleReceiver).line = s.line := rfl
@[simp] theorem State.idleReceiver_poll : (s.idleReceiver).poll = s.poll := rfl
@[simp] theorem State.idleReceiver_notes : (s.idleReceiver).notes = s.notes := rfl
@[simp] theorem State.idleReceiver_slots : (s.idleReceiver).slots = s.slots := rfl
@[simp] theorem State.idleReceiver_circuits : (s.idleReceiver).circuits = s.circuits := rfl
@[simp] theorem State.idleReceiver_lanes : (s.idleReceiver).lanes = s.lanes := rfl
@[simp] theorem State.idleReceiver_lastPacketHandle : (s.idleReceiver).lastPacketHandle = s.lastPacketHandle := rfl
@[simp] theorem State.idleReceiver_window : (s.idleReceiver).window = s.window := rfl
@[simp] theorem State.idleReceiver_mailboxes : (s.idleReceiver).mailboxes = s.mailboxes := rfl
@[simp] theorem State.idleReceiver_free : (s.idleReceiver).free = s.free := rfl
@[simp] theorem State.idleReceiver_rep : (s.idleReceiver).rep = s.rep := rfl
@[simp] theorem State.idleReceiver_link : (s.idleReceiver).link = s.link := rfl
@[simp] theorem State.idleReceiver_pin : (s.idleReceiver).pin = s.pin := rfl
@[simp] theorem State.idleReceiver_choices : (s.idleReceiver).choices = s.choices := rfl
@[simp] theorem State.idleReceiver_pending : (s.idleReceiver).pending = s.pending := rfl

/-! ## modNote -/

@[simp] theorem State.modNote_line (h : Nat) (f : Note → Note) : (s.modNote h f).line = s.line := rfl
@[simp] theorem State.modNote_poll (h : Nat) (f : Note → Note) : (s.modNote h f).poll = s.poll := rfl
@[simp] theorem State.modNote_slots (h : Nat) (f : Note → Note) : (s.modNote h f).slots = s.slots := rfl
@[simp] theorem State.modNote_circuits (h : Nat) (f : Note → Note) : (s.modNote h f).circuits = s.circuits := rfl
@[simp] theorem State.modNote_lanes (h : Nat) (f : Note → Note) : (s.modNote h f).lanes = s.lanes := rfl
@[simp] theorem State.modNote_lastPacketHandle (h : Nat) (f : Note → Note) :
    (s.modNote h f).lastPacketHandle = s.lastPacketHandle := rfl
@[simp] theorem State.modNote_window (h : Nat) (f : Note → Note) : (s.modNote h f).window = s.window := rfl
@[simp] theorem State.modNote_rx (h : Nat) (f : Note → Note) : (s.modNote h f).rx = s.rx := rfl
@[simp] theorem State.modNote_mailboxes (h : Nat) (f : Note → Note) : (s.modNote h f).mailboxes = s.mailboxes := rfl
@[simp] theorem State.modNote_free (h : Nat) (f : Note → Note) : (s.modNote h f).free = s.free := rfl
@[simp] theorem State.modNote_rep (h : Nat) (f : Note → Note) : (s.modNote h f).rep = s.rep := rfl
@[simp] theorem State.modNote_link (h : Nat) (f : Note → Note) : (s.modNote h f).link = s.link := rfl
@[simp] theorem State.modNote_pin (h : Nat) (f : Note → Note) : (s.modNote h f).pin = s.pin := rfl
@[simp] theorem State.modNote_choices (h : Nat) (f : Note → Note) : (s.modNote h f).choices = s.choices := rfl
@[simp] theorem State.modNote_pending (h : Nat) (f : Note → Note) : (s.modNote h f).pending = s.pending := rfl

/-! ## addReclaim -/

@[simp] theorem State.addReclaim_line (x : Loss) : (s.addReclaim x).line = s.line := rfl
@[simp] theorem State.addReclaim_poll (x : Loss) : (s.addReclaim x).poll = s.poll := rfl
@[simp] theorem State.addReclaim_notes (x : Loss) : (s.addReclaim x).notes = s.notes := rfl
@[simp] theorem State.addReclaim_circuits (x : Loss) : (s.addReclaim x).circuits = s.circuits := rfl
@[simp] theorem State.addReclaim_lanes (x : Loss) : (s.addReclaim x).lanes = s.lanes := rfl
@[simp] theorem State.addReclaim_lastPacketHandle (x : Loss) :
    (s.addReclaim x).lastPacketHandle = s.lastPacketHandle := rfl
@[simp] theorem State.addReclaim_window (x : Loss) : (s.addReclaim x).window = s.window := rfl
@[simp] theorem State.addReclaim_rx (x : Loss) : (s.addReclaim x).rx = s.rx := rfl
@[simp] theorem State.addReclaim_mailboxes (x : Loss) : (s.addReclaim x).mailboxes = s.mailboxes := rfl
@[simp] theorem State.addReclaim_free (x : Loss) : (s.addReclaim x).free = s.free := rfl
@[simp] theorem State.addReclaim_rep (x : Loss) : (s.addReclaim x).rep = s.rep := rfl
@[simp] theorem State.addReclaim_link (x : Loss) : (s.addReclaim x).link = s.link := rfl
@[simp] theorem State.addReclaim_pin (x : Loss) : (s.addReclaim x).pin = s.pin := rfl
@[simp] theorem State.addReclaim_choices (x : Loss) : (s.addReclaim x).choices = s.choices := rfl
@[simp] theorem State.addReclaim_pending (x : Loss) : (s.addReclaim x).pending = s.pending := rfl

/-! ## dropReclaim -/

@[simp] theorem State.dropReclaim_line (p : ReclaimEntry → Bool) : (s.dropReclaim p).line = s.line := rfl
@[simp] theorem State.dropReclaim_poll (p : ReclaimEntry → Bool) : (s.dropReclaim p).poll = s.poll := rfl
@[simp] theorem State.dropReclaim_notes (p : ReclaimEntry → Bool) : (s.dropReclaim p).notes = s.notes := rfl
@[simp] theorem State.dropReclaim_circuits (p : ReclaimEntry → Bool) : (s.dropReclaim p).circuits = s.circuits := rfl
@[simp] theorem State.dropReclaim_lanes (p : ReclaimEntry → Bool) : (s.dropReclaim p).lanes = s.lanes := rfl
@[simp] theorem State.dropReclaim_lastPacketHandle (p : ReclaimEntry → Bool) :
    (s.dropReclaim p).lastPacketHandle = s.lastPacketHandle := rfl
@[simp] theorem State.dropReclaim_window (p : ReclaimEntry → Bool) : (s.dropReclaim p).window = s.window := rfl
@[simp] theorem State.dropReclaim_rx (p : ReclaimEntry → Bool) : (s.dropReclaim p).rx = s.rx := rfl
@[simp] theorem State.dropReclaim_mailboxes (p : ReclaimEntry → Bool) :
    (s.dropReclaim p).mailboxes = s.mailboxes := rfl
@[simp] theorem State.dropReclaim_free (p : ReclaimEntry → Bool) : (s.dropReclaim p).free = s.free := rfl
@[simp] theorem State.dropReclaim_rep (p : ReclaimEntry → Bool) : (s.dropReclaim p).rep = s.rep := rfl
@[simp] theorem State.dropReclaim_link (p : ReclaimEntry → Bool) : (s.dropReclaim p).link = s.link := rfl
@[simp] theorem State.dropReclaim_pin (p : ReclaimEntry → Bool) : (s.dropReclaim p).pin = s.pin := rfl
@[simp] theorem State.dropReclaim_choices (p : ReclaimEntry → Bool) : (s.dropReclaim p).choices = s.choices := rfl
@[simp] theorem State.dropReclaim_pending (p : ReclaimEntry → Bool) : (s.dropReclaim p).pending = s.pending := rfl

/-! ## startReply -/

@[simp] theorem State.startReply_line : (s.startReply).line = s.line := rfl
@[simp] theorem State.startReply_poll : (s.startReply).poll = s.poll := rfl
@[simp] theorem State.startReply_notes : (s.startReply).notes = s.notes := rfl
@[simp] theorem State.startReply_slots : (s.startReply).slots = s.slots := rfl
@[simp] theorem State.startReply_circuits : (s.startReply).circuits = s.circuits := rfl
@[simp] theorem State.startReply_lanes : (s.startReply).lanes = s.lanes := rfl
@[simp] theorem State.startReply_lastPacketHandle : (s.startReply).lastPacketHandle = s.lastPacketHandle := rfl
@[simp] theorem State.startReply_window : (s.startReply).window = s.window := rfl
@[simp] theorem State.startReply_rx : (s.startReply).rx = s.rx := rfl
@[simp] theorem State.startReply_mailboxes : (s.startReply).mailboxes = s.mailboxes := rfl
@[simp] theorem State.startReply_free : (s.startReply).free = s.free := rfl
@[simp] theorem State.startReply_rep : (s.startReply).rep = s.rep := rfl
@[simp] theorem State.startReply_pin : (s.startReply).pin = s.pin := rfl
@[simp] theorem State.startReply_choices : (s.startReply).choices = s.choices := rfl
@[simp] theorem State.startReply_pending : (s.startReply).pending = s.pending := rfl

/-! ## The fields that are changed -/

@[simp] theorem State.setEntry_reclaim (d : Dir) (slot : Nat) (e : Option MapEntry) :
    (s.setEntry d slot e).slots.reclaim = s.slots.reclaim := by
  cases d <;> rfl
@[simp] theorem State.modLane_lanes (l : Nat) (f : Lane → Lane) : (s.modLane l f).lanes = s.lanes.modify l f := rfl
@[simp] theorem State.setCircuit_circuits (n : Nat) (x : Option Circuit) :
    (s.setCircuit n x).circuits = s.circuits.set n x := rfl
@[simp] theorem State.modMailbox_mailboxes (m : Nat) (f : Mailbox → Mailbox) :
    (s.modMailbox m f).mailboxes = s.mailboxes.modify m f := rfl
@[simp] theorem State.report_rep (r : Report) : (s.report r).rep = s.rep.handOver r := rfl
@[simp] theorem State.complete_rep (e : Completion) :
    (s.complete e).rep = ReportUnit.transfer s.now { s.rep with entries := s.rep.entries ++ [e] } := rfl
@[simp] theorem State.withRecord_rx (x : ReceiverState) (r : ReceiveRecord) :
    (s.withRecord x r).rx = { s.rx with state := x, record := r } := rfl
@[simp] theorem State.idleReceiver_rx : s.idleReceiver.rx = { s.rx with state := .idle, record := .empty } := rfl
@[simp] theorem State.withFramer_link (f : Framer) : (s.withFramer f).link = { s.link with framer := f } := rfl
@[simp] theorem State.drive_line (slot : Nat) (o : Octet) :
    (s.drive slot o).line = { s.line with driven := s.line.driven.set slot o } := rfl
@[simp] theorem State.startReply_link : s.startReply.link = { s.link with tx := .reply } := rfl
@[simp] theorem State.dropReclaim_slots (p : ReclaimEntry → Bool) :
    (s.dropReclaim p).slots = { s.slots with reclaim := s.slots.reclaim.filter fun e => !p e } := rfl
@[simp] theorem State.modStation_succ_poll (n : Nat) (f : Station → Station) :
    (s.modStation (n + 1) f).poll = { s.poll with stations := s.poll.stations.modify n f } := rfl
@[simp] theorem State.modStation_zero (f : Station → Station) : s.modStation 0 f = s := rfl

end Sys2Proof.Machine
end

