-- ==== Sys2Proof/Laws/Frames.lean ====
section
/-! SUPPORT. What the work of each block leaves unchanged: for each composite operation, the fields of State it does not touch. -/

namespace Sys2Proof.Machine

variable (s : State)

/-! ## Reports that have gone out -/

@[simp] theorem ReportUnit.handOver_sent (u : ReportUnit) (r : Report) :
    (u.handOver r).window = u.window ∧ (u.handOver r).nextSeq = u.nextSeq ∧ (u.handOver r).resend = u.resend := by
  unfold ReportUnit.handOver
  repeat' split
  all_goals exact ⟨rfl, rfl, rfl⟩

theorem ReportUnit.transferSteps_sent (now : BitVec 16) (n : Nat) (u : ReportUnit) :
    (u.transferSteps now n).window = u.window ∧ (u.transferSteps now n).nextSeq = u.nextSeq
      ∧ (u.transferSteps now n).resend = u.resend := by
  induction n generalizing u with
  | zero => exact ⟨rfl, rfl, rfl⟩
  | succ n ih =>
    unfold ReportUnit.transferSteps
    repeat' split
    all_goals first | exact ⟨rfl, rfl, rfl⟩ | simp only [ih]; exact ⟨rfl, rfl, rfl⟩

@[simp] theorem ReportUnit.transfer_sent (u : ReportUnit) (now : BitVec 16) :
    (u.transfer now).window = u.window ∧ (u.transfer now).nextSeq = u.nextSeq ∧ (u.transfer now).resend = u.resend :=
  u.transferSteps_sent now _

@[simp] theorem State.report_sent (r : Report) :
    (s.report r).rep.window = s.rep.window ∧ (s.report r).rep.nextSeq = s.rep.nextSeq
      ∧ (s.report r).rep.resend = s.rep.resend :=
  s.rep.handOver_sent r

@[simp] theorem State.complete_sent (e : Completion) :
    (s.complete e).rep.window = s.rep.window ∧ (s.complete e).rep.nextSeq = s.rep.nextSeq
      ∧ (s.complete e).rep.resend = s.rep.resend :=
  ReportUnit.transfer_sent _ _

/-! ## Reports and the transmitter -/

@[simp] theorem State.startReport_frame :
    s.startReport.line = s.line ∧ s.startReport.poll = s.poll ∧ s.startReport.notes = s.notes
      ∧ s.startReport.slots = s.slots ∧ s.startReport.circuits = s.circuits ∧ s.startReport.lanes = s.lanes
      ∧ s.startReport.lastPacketHandle = s.lastPacketHandle ∧ s.startReport.window = s.window
      ∧ s.startReport.rx = s.rx ∧ s.startReport.mailboxes = s.mailboxes ∧ s.startReport.free = s.free
      ∧ s.startReport.pin = s.pin ∧ s.startReport.choices = s.choices ∧ s.startReport.pending = s.pending
      ∧ s.startReport.rep.entries = s.rep.entries ∧ s.startReport.rep.lostCount = s.rep.lostCount
      ∧ s.startReport.rep.kindsLost = s.rep.kindsLost ∧ s.startReport.link.rate = s.link.rate
      ∧ s.startReport.link.framer = s.link.framer ∧ s.startReport.link.intake = s.link.intake
      ∧ s.startReport.link.hold = s.link.hold ∧ s.startReport.link.replies = s.link.replies
      ∧ s.startReport.link.faultCount = s.link.faultCount ∧ s.startReport.link.rxLow = s.link.rxLow := by
  unfold State.startReport
  try dsimp only
  repeat' split
  all_goals simp

@[simp] theorem State.modStation_calls_frame (a : Nat) (f : Station → Station) :
    (s.modStation a f).poll.pollPointer = s.poll.pollPointer
      ∧ (s.modStation a f).poll.probePointer = s.poll.probePointer ∧ (s.modStation a f).poll.call = s.poll.call := by
  cases a <;> simp [State.modStation]

/-! ## Notes -/

@[simp] theorem State.finishNote_frame (n : Note) (outcome : NoteOutcome) :
    (s.finishNote n outcome).line = s.line ∧ (s.finishNote n outcome).slots = s.slots
      ∧ (s.finishNote n outcome).circuits = s.circuits ∧ (s.finishNote n outcome).lanes = s.lanes
      ∧ (s.finishNote n outcome).lastPacketHandle = s.lastPacketHandle ∧ (s.finishNote n outcome).window = s.window
      ∧ (s.finishNote n outcome).rx = s.rx ∧ (s.finishNote n outcome).mailboxes = s.mailboxes
      ∧ (s.finishNote n outcome).free = s.free ∧ (s.finishNote n outcome).link = s.link
      ∧ (s.finishNote n outcome).pin = s.pin ∧ (s.finishNote n outcome).choices = s.choices
      ∧ (s.finishNote n outcome).pending = s.pending ∧ (s.finishNote n outcome).poll.pollPointer = s.poll.pollPointer
      ∧ (s.finishNote n outcome).poll.probePointer = s.poll.probePointer
      ∧ (s.finishNote n outcome).poll.call = s.poll.call ∧ (s.finishNote n outcome).notes.callOut = s.notes.callOut
      ∧ (s.finishNote n outcome).notes.lastHandle = s.notes.lastHandle
      ∧ (s.finishNote n outcome).rep.window = s.rep.window ∧ (s.finishNote n outcome).rep.nextSeq = s.rep.nextSeq
      ∧ (s.finishNote n outcome).rep.resend = s.rep.resend := by
  unfold State.finishNote
  try dsimp only
  repeat' split
  all_goals simp

@[simp] theorem State.finishNotes_frame (ns : List Note) (outcome : NoteOutcome) :
    (s.finishNotes ns outcome).line = s.line ∧ (s.finishNotes ns outcome).slots = s.slots
      ∧ (s.finishNotes ns outcome).circuits = s.circuits ∧ (s.finishNotes ns outcome).lanes = s.lanes
      ∧ (s.finishNotes ns outcome).lastPacketHandle = s.lastPacketHandle
      ∧ (s.finishNotes ns outcome).window = s.window ∧ (s.finishNotes ns outcome).rx = s.rx
      ∧ (s.finishNotes ns outcome).mailboxes = s.mailboxes ∧ (s.finishNotes ns outcome).free = s.free
      ∧ (s.finishNotes ns outcome).link = s.link ∧ (s.finishNotes ns outcome).pin = s.pin
      ∧ (s.finishNotes ns outcome).choices = s.choices ∧ (s.finishNotes ns outcome).pending = s.pending
      ∧ (s.finishNotes ns outcome).poll.pollPointer = s.poll.pollPointer
      ∧ (s.finishNotes ns outcome).poll.probePointer = s.poll.probePointer
      ∧ (s.finishNotes ns outcome).poll.call = s.poll.call
      ∧ (s.finishNotes ns outcome).notes.callOut = s.notes.callOut
      ∧ (s.finishNotes ns outcome).notes.lastHandle = s.notes.lastHandle
      ∧ (s.finishNotes ns outcome).rep.window = s.rep.window ∧ (s.finishNotes ns outcome).rep.nextSeq = s.rep.nextSeq
      ∧ (s.finishNotes ns outcome).rep.resend = s.rep.resend := by
  unfold State.finishNotes
  induction ns generalizing s with
  | nil => simp
  | cons x l ih =>
    simp only [List.foldl_cons, ih]
    all_goals simp

@[simp] theorem State.loseNotes_frame (a : Nat) :
    (s.loseNotes a).line = s.line ∧ (s.loseNotes a).slots = s.slots ∧ (s.loseNotes a).circuits = s.circuits
      ∧ (s.loseNotes a).lanes = s.lanes ∧ (s.loseNotes a).lastPacketHandle = s.lastPacketHandle
      ∧ (s.loseNotes a).window = s.window ∧ (s.loseNotes a).rx = s.rx ∧ (s.loseNotes a).mailboxes = s.mailboxes
      ∧ (s.loseNotes a).free = s.free ∧ (s.loseNotes a).link = s.link ∧ (s.loseNotes a).pin = s.pin
      ∧ (s.loseNotes a).choices = s.choices ∧ (s.loseNotes a).pending = s.pending
      ∧ (s.loseNotes a).poll.pollPointer = s.poll.pollPointer
      ∧ (s.loseNotes a).poll.probePointer = s.poll.probePointer ∧ (s.loseNotes a).poll.call = s.poll.call
      ∧ (s.loseNotes a).notes.callOut = s.notes.callOut ∧ (s.loseNotes a).notes.lastHandle = s.notes.lastHandle
      ∧ (s.loseNotes a).rep.window = s.rep.window ∧ (s.loseNotes a).rep.nextSeq = s.rep.nextSeq
      ∧ (s.loseNotes a).rep.resend = s.rep.resend := by
  unfold State.loseNotes
  try dsimp only
  all_goals simp

@[simp] theorem State.stopNotes_frame :
    s.stopNotes.line = s.line ∧ s.stopNotes.slots = s.slots ∧ s.stopNotes.circuits = s.circuits
      ∧ s.stopNotes.lanes = s.lanes ∧ s.stopNotes.lastPacketHandle = s.lastPacketHandle
      ∧ s.stopNotes.window = s.window ∧ s.stopNotes.rx = s.rx ∧ s.stopNotes.mailboxes = s.mailboxes
      ∧ s.stopNotes.free = s.free ∧ s.stopNotes.link = s.link ∧ s.stopNotes.pin = s.pin
      ∧ s.stopNotes.choices = s.choices ∧ s.stopNotes.pending = s.pending
      ∧ s.stopNotes.poll.pollPointer = s.poll.pollPointer ∧ s.stopNotes.poll.probePointer = s.poll.probePointer
      ∧ s.stopNotes.poll.call = s.poll.call ∧ s.stopNotes.notes.callOut = s.notes.callOut
      ∧ s.stopNotes.notes.lastHandle = s.notes.lastHandle ∧ s.stopNotes.rep.window = s.rep.window
      ∧ s.stopNotes.rep.nextSeq = s.rep.nextSeq ∧ s.stopNotes.rep.resend = s.rep.resend := by
  unfold State.stopNotes
  try dsimp only
  all_goals simp

@[simp] theorem State.callNote_frame (a : Nat) :
    (s.callNote a).line = s.line ∧ (s.callNote a).slots = s.slots ∧ (s.callNote a).circuits = s.circuits
      ∧ (s.callNote a).lanes = s.lanes ∧ (s.callNote a).lastPacketHandle = s.lastPacketHandle
      ∧ (s.callNote a).window = s.window ∧ (s.callNote a).rx = s.rx ∧ (s.callNote a).mailboxes = s.mailboxes
      ∧ (s.callNote a).free = s.free ∧ (s.callNote a).rep = s.rep ∧ (s.callNote a).link = s.link
      ∧ (s.callNote a).pin = s.pin ∧ (s.callNote a).choices = s.choices ∧ (s.callNote a).pending = s.pending
      ∧ (s.callNote a).poll.pollPointer = s.poll.pollPointer ∧ (s.callNote a).poll.probePointer = s.poll.probePointer
      ∧ (s.callNote a).poll.call = s.poll.call := by
  unfold State.callNote
  try dsimp only
  repeat' split
  all_goals simp

@[simp] theorem State.judgeOctet_frame (a : Nat) (c : CallOut) (n : Note) (echo busy : Bool) :
    (s.judgeOctet a c n echo busy).line = s.line ∧ (s.judgeOctet a c n echo busy).slots = s.slots
      ∧ (s.judgeOctet a c n echo busy).circuits = s.circuits ∧ (s.judgeOctet a c n echo busy).lanes = s.lanes
      ∧ (s.judgeOctet a c n echo busy).lastPacketHandle = s.lastPacketHandle
      ∧ (s.judgeOctet a c n echo busy).window = s.window ∧ (s.judgeOctet a c n echo busy).rx = s.rx
      ∧ (s.judgeOctet a c n echo busy).mailboxes = s.mailboxes ∧ (s.judgeOctet a c n echo busy).free = s.free
      ∧ (s.judgeOctet a c n echo busy).link = s.link ∧ (s.judgeOctet a c n echo busy).pin = s.pin
      ∧ (s.judgeOctet a c n echo busy).choices = s.choices ∧ (s.judgeOctet a c n echo busy).pending = s.pending
      ∧ (s.judgeOctet a c n echo busy).poll.pollPointer = s.poll.pollPointer
      ∧ (s.judgeOctet a c n echo busy).poll.probePointer = s.poll.probePointer
      ∧ (s.judgeOctet a c n echo busy).poll.call = s.poll.call
      ∧ (s.judgeOctet a c n echo busy).rep.window = s.rep.window
      ∧ (s.judgeOctet a c n echo busy).rep.nextSeq = s.rep.nextSeq
      ∧ (s.judgeOctet a c n echo busy).rep.resend = s.rep.resend := by
  unfold State.judgeOctet
  try dsimp only
  repeat' split
  all_goals simp

@[simp] theorem State.judgeNote_frame (a : Nat) (echo busy : Bool) :
    (s.judgeNote a echo busy).line = s.line ∧ (s.judgeNote a echo busy).slots = s.slots
      ∧ (s.judgeNote a echo busy).circuits = s.circuits ∧ (s.judgeNote a echo busy).lanes = s.lanes
      ∧ (s.judgeNote a echo busy).lastPacketHandle = s.lastPacketHandle ∧ (s.judgeNote a echo busy).window = s.window
      ∧ (s.judgeNote a echo busy).rx = s.rx ∧ (s.judgeNote a echo busy).mailboxes = s.mailboxes
      ∧ (s.judgeNote a echo busy).free = s.free ∧ (s.judgeNote a echo busy).link = s.link
      ∧ (s.judgeNote a echo busy).pin = s.pin ∧ (s.judgeNote a echo busy).choices = s.choices
      ∧ (s.judgeNote a echo busy).pending = s.pending
      ∧ (s.judgeNote a echo busy).poll.pollPointer = s.poll.pollPointer
      ∧ (s.judgeNote a echo busy).poll.probePointer = s.poll.probePointer
      ∧ (s.judgeNote a echo busy).poll.call = s.poll.call ∧ (s.judgeNote a echo busy).rep.window = s.rep.window
      ∧ (s.judgeNote a echo busy).rep.nextSeq = s.rep.nextSeq ∧ (s.judgeNote a echo busy).rep.resend = s.rep.resend := by
  unfold State.judgeNote
  try dsimp only
  repeat' split
  all_goals simp

/-! ## Receiver and window -/

@[simp] theorem State.discardPacket_frame :
    s.discardPacket.line = s.line ∧ s.discardPacket.poll = s.poll ∧ s.discardPacket.notes = s.notes
      ∧ s.discardPacket.slots = s.slots ∧ s.discardPacket.circuits = s.circuits ∧ s.discardPacket.lanes = s.lanes
      ∧ s.discardPacket.lastPacketHandle = s.lastPacketHandle ∧ s.discardPacket.window = s.window
      ∧ s.discardPacket.mailboxes = s.mailboxes ∧ s.discardPacket.rep = s.rep ∧ s.discardPacket.link = s.link
      ∧ s.discardPacket.pin = s.pin ∧ s.discardPacket.choices = s.choices ∧ s.discardPacket.pending = s.pending := by
  unfold State.discardPacket
  try dsimp only
  repeat' split
  all_goals simp

@[simp] theorem State.endWindow_frame (e : WindowEnd) :
    (s.endWindow e).line = s.line ∧ (s.endWindow e).poll = s.poll ∧ (s.endWindow e).notes = s.notes
      ∧ (s.endWindow e).slots = s.slots ∧ (s.endWindow e).circuits = s.circuits ∧ (s.endWindow e).lanes = s.lanes
      ∧ (s.endWindow e).lastPacketHandle = s.lastPacketHandle ∧ (s.endWindow e).mailboxes = s.mailboxes
      ∧ (s.endWindow e).link = s.link ∧ (s.endWindow e).pin = s.pin ∧ (s.endWindow e).choices = s.choices
      ∧ (s.endWindow e).pending = s.pending ∧ (s.endWindow e).window.queue = s.window.queue
      ∧ (s.endWindow e).window.bidCollisions = s.window.bidCollisions
      ∧ (s.endWindow e).window.ignoredBids = s.window.ignoredBids ∧ (s.endWindow e).rep.window = s.rep.window
      ∧ (s.endWindow e).rep.nextSeq = s.rep.nextSeq ∧ (s.endWindow e).rep.resend = s.rep.resend := by
  unfold State.endWindow
  try dsimp only
  repeat' split
  all_goals simp

@[simp] theorem State.drain_frame (w : Window) (port : Octet) (fault : SortFault) (box : Option (Nat × MatchKind)) :
    (s.drain w port fault box).line = s.line ∧ (s.drain w port fault box).poll = s.poll
      ∧ (s.drain w port fault box).notes = s.notes ∧ (s.drain w port fault box).slots = s.slots
      ∧ (s.drain w port fault box).circuits = s.circuits ∧ (s.drain w port fault box).lanes = s.lanes
      ∧ (s.drain w port fault box).lastPacketHandle = s.lastPacketHandle
      ∧ (s.drain w port fault box).window = s.window ∧ (s.drain w port fault box).free = s.free
      ∧ (s.drain w port fault box).link = s.link ∧ (s.drain w port fault box).pin = s.pin
      ∧ (s.drain w port fault box).choices = s.choices ∧ (s.drain w port fault box).pending = s.pending
      ∧ (s.drain w port fault box).rep.window = s.rep.window ∧ (s.drain w port fault box).rep.nextSeq = s.rep.nextSeq
      ∧ (s.drain w port fault box).rep.resend = s.rep.resend := by
  unfold State.drain
  try dsimp only
  repeat' split
  all_goals simp

@[simp] theorem State.decideSort_frame (w : Window) (port station : Octet) (length : Nat) :
    (s.decideSort w port station length).line = s.line ∧ (s.decideSort w port station length).poll = s.poll
      ∧ (s.decideSort w port station length).notes = s.notes ∧ (s.decideSort w port station length).slots = s.slots
      ∧ (s.decideSort w port station length).circuits = s.circuits
      ∧ (s.decideSort w port station length).lanes = s.lanes
      ∧ (s.decideSort w port station length).lastPacketHandle = s.lastPacketHandle
      ∧ (s.decideSort w port station length).window = s.window ∧ (s.decideSort w port station length).link = s.link
      ∧ (s.decideSort w port station length).pin = s.pin ∧ (s.decideSort w port station length).choices = s.choices
      ∧ (s.decideSort w port station length).pending = s.pending
      ∧ (s.decideSort w port station length).rep.window = s.rep.window
      ∧ (s.decideSort w port station length).rep.nextSeq = s.rep.nextSeq
      ∧ (s.decideSort w port station length).rep.resend = s.rep.resend := by
  unfold State.decideSort
  try dsimp only
  repeat' split
  all_goals simp

@[simp] theorem State.judgeHeader_frame (w : Window) (port station : Octet) (length : Nat) :
    (s.judgeHeader w port station length).line = s.line ∧ (s.judgeHeader w port station length).poll = s.poll
      ∧ (s.judgeHeader w port station length).notes = s.notes ∧ (s.judgeHeader w port station length).slots = s.slots
      ∧ (s.judgeHeader w port station length).circuits = s.circuits
      ∧ (s.judgeHeader w port station length).lanes = s.lanes
      ∧ (s.judgeHeader w port station length).lastPacketHandle = s.lastPacketHandle
      ∧ (s.judgeHeader w port station length).link = s.link ∧ (s.judgeHeader w port station length).pin = s.pin
      ∧ (s.judgeHeader w port station length).choices = s.choices
      ∧ (s.judgeHeader w port station length).pending = s.pending
      ∧ (s.judgeHeader w port station length).window.queue = s.window.queue
      ∧ (s.judgeHeader w port station length).window.bidCollisions = s.window.bidCollisions
      ∧ (s.judgeHeader w port station length).window.ignoredBids = s.window.ignoredBids
      ∧ (s.judgeHeader w port station length).rep.window = s.rep.window
      ∧ (s.judgeHeader w port station length).rep.nextSeq = s.rep.nextSeq
      ∧ (s.judgeHeader w port station length).rep.resend = s.rep.resend := by
  unfold State.judgeHeader
  try dsimp only
  repeat' split
  all_goals simp

@[simp] theorem State.storePacket_frame (port : Octet) (source length m : Nat) (k : MatchKind) :
    (s.storePacket port source length m k).line = s.line ∧ (s.storePacket port source length m k).poll = s.poll
      ∧ (s.storePacket port source length m k).notes = s.notes
      ∧ (s.storePacket port source length m k).slots = s.slots
      ∧ (s.storePacket port source length m k).circuits = s.circuits
      ∧ (s.storePacket port source length m k).lanes = s.lanes
      ∧ (s.storePacket port source length m k).lastPacketHandle = s.lastPacketHandle
      ∧ (s.storePacket port source length m k).link = s.link ∧ (s.storePacket port source length m k).pin = s.pin
      ∧ (s.storePacket port source length m k).choices = s.choices
      ∧ (s.storePacket port source length m k).pending = s.pending
      ∧ (s.storePacket port source length m k).window.queue = s.window.queue
      ∧ (s.storePacket port source length m k).window.bidCollisions = s.window.bidCollisions
      ∧ (s.storePacket port source length m k).window.ignoredBids = s.window.ignoredBids
      ∧ (s.storePacket port source length m k).rep.window = s.rep.window
      ∧ (s.storePacket port source length m k).rep.nextSeq = s.rep.nextSeq
      ∧ (s.storePacket port source length m k).rep.resend = s.rep.resend := by
  unfold State.storePacket
  try dsimp only
  repeat' split
  all_goals simp

@[simp] theorem State.rejectPacket_frame (w : Window) (received : BitVec 16) :
    (s.rejectPacket w received).line = s.line ∧ (s.rejectPacket w received).notes = s.notes
      ∧ (s.rejectPacket w received).slots = s.slots ∧ (s.rejectPacket w received).circuits = s.circuits
      ∧ (s.rejectPacket w received).lanes = s.lanes
      ∧ (s.rejectPacket w received).lastPacketHandle = s.lastPacketHandle
      ∧ (s.rejectPacket w received).mailboxes = s.mailboxes ∧ (s.rejectPacket w received).link = s.link
      ∧ (s.rejectPacket w received).pin = s.pin ∧ (s.rejectPacket w received).choices = s.choices
      ∧ (s.rejectPacket w received).pending = s.pending ∧ (s.rejectPacket w received).window.queue = s.window.queue
      ∧ (s.rejectPacket w received).window.bidCollisions = s.window.bidCollisions
      ∧ (s.rejectPacket w received).window.ignoredBids = s.window.ignoredBids
      ∧ (s.rejectPacket w received).poll.pollPointer = s.poll.pollPointer
      ∧ (s.rejectPacket w received).poll.probePointer = s.poll.probePointer
      ∧ (s.rejectPacket w received).poll.call = s.poll.call ∧ (s.rejectPacket w received).rep.window = s.rep.window
      ∧ (s.rejectPacket w received).rep.nextSeq = s.rep.nextSeq
      ∧ (s.rejectPacket w received).rep.resend = s.rep.resend := by
  unfold State.rejectPacket
  try dsimp only
  all_goals simp

@[simp] theorem State.takeHeader_frame (w : Window) (o : Octet) :
    (s.takeHeader w o).line = s.line ∧ (s.takeHeader w o).poll = s.poll ∧ (s.takeHeader w o).notes = s.notes
      ∧ (s.takeHeader w o).slots = s.slots ∧ (s.takeHeader w o).circuits = s.circuits
      ∧ (s.takeHeader w o).lanes = s.lanes ∧ (s.takeHeader w o).lastPacketHandle = s.lastPacketHandle
      ∧ (s.takeHeader w o).link = s.link ∧ (s.takeHeader w o).pin = s.pin ∧ (s.takeHeader w o).choices = s.choices
      ∧ (s.takeHeader w o).pending = s.pending ∧ (s.takeHeader w o).window.queue = s.window.queue
      ∧ (s.takeHeader w o).window.bidCollisions = s.window.bidCollisions
      ∧ (s.takeHeader w o).window.ignoredBids = s.window.ignoredBids ∧ (s.takeHeader w o).rep.window = s.rep.window
      ∧ (s.takeHeader w o).rep.nextSeq = s.rep.nextSeq ∧ (s.takeHeader w o).rep.resend = s.rep.resend := by
  unfold State.takeHeader
  try dsimp only
  repeat' split
  all_goals simp

@[simp] theorem State.receive_frame (w : Window) (o : Octet) :
    (s.receive w o).line = s.line ∧ (s.receive w o).notes = s.notes ∧ (s.receive w o).slots = s.slots
      ∧ (s.receive w o).circuits = s.circuits ∧ (s.receive w o).lanes = s.lanes
      ∧ (s.receive w o).lastPacketHandle = s.lastPacketHandle ∧ (s.receive w o).link = s.link
      ∧ (s.receive w o).pin = s.pin ∧ (s.receive w o).choices = s.choices ∧ (s.receive w o).pending = s.pending
      ∧ (s.receive w o).window.queue = s.window.queue ∧ (s.receive w o).window.bidCollisions = s.window.bidCollisions
      ∧ (s.receive w o).window.ignoredBids = s.window.ignoredBids
      ∧ (s.receive w o).poll.pollPointer = s.poll.pollPointer
      ∧ (s.receive w o).poll.probePointer = s.poll.probePointer ∧ (s.receive w o).poll.call = s.poll.call
      ∧ (s.receive w o).rep.window = s.rep.window ∧ (s.receive w o).rep.nextSeq = s.rep.nextSeq
      ∧ (s.receive w o).rep.resend = s.rep.resend := by
  unfold State.receive
  try dsimp only
  repeat' split
  all_goals simp

@[simp] theorem State.windowOctet_frame (w : Window) (slot : Nat) (o : Octet) :
    (s.windowOctet w slot o).line = s.line ∧ (s.windowOctet w slot o).notes = s.notes
      ∧ (s.windowOctet w slot o).slots = s.slots ∧ (s.windowOctet w slot o).circuits = s.circuits
      ∧ (s.windowOctet w slot o).lanes = s.lanes ∧ (s.windowOctet w slot o).lastPacketHandle = s.lastPacketHandle
      ∧ (s.windowOctet w slot o).link = s.link ∧ (s.windowOctet w slot o).pin = s.pin
      ∧ (s.windowOctet w slot o).choices = s.choices ∧ (s.windowOctet w slot o).pending = s.pending
      ∧ (s.windowOctet w slot o).window.queue = s.window.queue
      ∧ (s.windowOctet w slot o).window.bidCollisions = s.window.bidCollisions
      ∧ (s.windowOctet w slot o).window.ignoredBids = s.window.ignoredBids
      ∧ (s.windowOctet w slot o).poll.pollPointer = s.poll.pollPointer
      ∧ (s.windowOctet w slot o).poll.probePointer = s.poll.probePointer
      ∧ (s.windowOctet w slot o).poll.call = s.poll.call ∧ (s.windowOctet w slot o).rep.window = s.rep.window
      ∧ (s.windowOctet w slot o).rep.nextSeq = s.rep.nextSeq ∧ (s.windowOctet w slot o).rep.resend = s.rep.resend := by
  unfold State.windowOctet
  try dsimp only
  repeat' split
  all_goals simp

/-! ## Packets -/

@[simp] theorem State.finishPacket_frame (l : Nat) (p : Packet) (outcome : PacketOutcome) (reason : Option PacketReason) :
    (s.finishPacket l p outcome reason).line = s.line ∧ (s.finishPacket l p outcome reason).poll = s.poll
      ∧ (s.finishPacket l p outcome reason).notes = s.notes ∧ (s.finishPacket l p outcome reason).slots = s.slots
      ∧ (s.finishPacket l p outcome reason).circuits = s.circuits
      ∧ (s.finishPacket l p outcome reason).lastPacketHandle = s.lastPacketHandle
      ∧ (s.finishPacket l p outcome reason).window = s.window ∧ (s.finishPacket l p outcome reason).rx = s.rx
      ∧ (s.finishPacket l p outcome reason).mailboxes = s.mailboxes
      ∧ (s.finishPacket l p outcome reason).link = s.link ∧ (s.finishPacket l p outcome reason).pin = s.pin
      ∧ (s.finishPacket l p outcome reason).choices = s.choices
      ∧ (s.finishPacket l p outcome reason).pending = s.pending
      ∧ (s.finishPacket l p outcome reason).rep.window = s.rep.window
      ∧ (s.finishPacket l p outcome reason).rep.nextSeq = s.rep.nextSeq
      ∧ (s.finishPacket l p outcome reason).rep.resend = s.rep.resend := by
  unfold State.finishPacket
  try dsimp only
  all_goals simp

@[simp] theorem State.laneSlotLost_frame (l slot : Nat) :
    (s.laneSlotLost l slot).line = s.line ∧ (s.laneSlotLost l slot).poll = s.poll
      ∧ (s.laneSlotLost l slot).notes = s.notes ∧ (s.laneSlotLost l slot).slots = s.slots
      ∧ (s.laneSlotLost l slot).circuits = s.circuits ∧ (s.laneSlotLost l slot).lastPacketHandle = s.lastPacketHandle
      ∧ (s.laneSlotLost l slot).window = s.window ∧ (s.laneSlotLost l slot).rx = s.rx
      ∧ (s.laneSlotLost l slot).mailboxes = s.mailboxes ∧ (s.laneSlotLost l slot).link = s.link
      ∧ (s.laneSlotLost l slot).pin = s.pin ∧ (s.laneSlotLost l slot).choices = s.choices
      ∧ (s.laneSlotLost l slot).pending = s.pending ∧ (s.laneSlotLost l slot).rep.window = s.rep.window
      ∧ (s.laneSlotLost l slot).rep.nextSeq = s.rep.nextSeq ∧ (s.laneSlotLost l slot).rep.resend = s.rep.resend := by
  unfold State.laneSlotLost
  try dsimp only
  repeat' split
  all_goals simp

@[simp] theorem State.stopLane_frame (l : Nat) :
    (s.stopLane l).line = s.line ∧ (s.stopLane l).poll = s.poll ∧ (s.stopLane l).notes = s.notes
      ∧ (s.stopLane l).slots = s.slots ∧ (s.stopLane l).circuits = s.circuits
      ∧ (s.stopLane l).lastPacketHandle = s.lastPacketHandle ∧ (s.stopLane l).window = s.window
      ∧ (s.stopLane l).rx = s.rx ∧ (s.stopLane l).mailboxes = s.mailboxes ∧ (s.stopLane l).link = s.link
      ∧ (s.stopLane l).pin = s.pin ∧ (s.stopLane l).choices = s.choices ∧ (s.stopLane l).pending = s.pending
      ∧ (s.stopLane l).rep.window = s.rep.window ∧ (s.stopLane l).rep.nextSeq = s.rep.nextSeq
      ∧ (s.stopLane l).rep.resend = s.rep.resend := by
  unfold State.stopLane
  try dsimp only
  repeat' split
  all_goals simp

@[simp] theorem State.stopLanes_frame :
    s.stopLanes.line = s.line ∧ s.stopLanes.poll = s.poll ∧ s.stopLanes.notes = s.notes ∧ s.stopLanes.slots = s.slots
      ∧ s.stopLanes.circuits = s.circuits ∧ s.stopLanes.lastPacketHandle = s.lastPacketHandle
      ∧ s.stopLanes.window = s.window ∧ s.stopLanes.rx = s.rx ∧ s.stopLanes.mailboxes = s.mailboxes
      ∧ s.stopLanes.link = s.link ∧ s.stopLanes.pin = s.pin ∧ s.stopLanes.choices = s.choices
      ∧ s.stopLanes.pending = s.pending ∧ s.stopLanes.rep.window = s.rep.window
      ∧ s.stopLanes.rep.nextSeq = s.rep.nextSeq ∧ s.stopLanes.rep.resend = s.rep.resend := by
  unfold State.stopLanes
  generalize (List.range Config.lanes) = l
  induction l generalizing s with
  | nil => simp
  | cons x l ih =>
    simp only [List.foldl_cons, ih]
    all_goals simp

@[simp] theorem State.startLanes_frame :
    s.startLanes.line = s.line ∧ s.startLanes.poll = s.poll ∧ s.startLanes.notes = s.notes
      ∧ s.startLanes.slots = s.slots ∧ s.startLanes.circuits = s.circuits
      ∧ s.startLanes.lastPacketHandle = s.lastPacketHandle ∧ s.startLanes.window = s.window ∧ s.startLanes.rx = s.rx
      ∧ s.startLanes.mailboxes = s.mailboxes ∧ s.startLanes.free = s.free ∧ s.startLanes.rep = s.rep
      ∧ s.startLanes.link = s.link ∧ s.startLanes.pin = s.pin ∧ s.startLanes.choices = s.choices
      ∧ s.startLanes.pending = s.pending := by
  unfold State.startLanes
  try dsimp only
  all_goals simp

@[simp] theorem State.sendOctet_frame (l : Nat) (p : Packet) (o : Octet) (checked : Bool) :
    (s.sendOctet l p o checked).2.line = s.line ∧ (s.sendOctet l p o checked).2.poll = s.poll
      ∧ (s.sendOctet l p o checked).2.notes = s.notes ∧ (s.sendOctet l p o checked).2.slots = s.slots
      ∧ (s.sendOctet l p o checked).2.circuits = s.circuits
      ∧ (s.sendOctet l p o checked).2.lastPacketHandle = s.lastPacketHandle
      ∧ (s.sendOctet l p o checked).2.window = s.window ∧ (s.sendOctet l p o checked).2.rx = s.rx
      ∧ (s.sendOctet l p o checked).2.mailboxes = s.mailboxes ∧ (s.sendOctet l p o checked).2.free = s.free
      ∧ (s.sendOctet l p o checked).2.rep = s.rep ∧ (s.sendOctet l p o checked).2.link = s.link
      ∧ (s.sendOctet l p o checked).2.pin = s.pin ∧ (s.sendOctet l p o checked).2.choices = s.choices
      ∧ (s.sendOctet l p o checked).2.pending = s.pending := by
  unfold State.sendOctet
  try dsimp only
  repeat' split
  all_goals simp

@[simp] theorem State.endPacket_frame (l : Nat) (p : Packet) (o : Octet) (outcome : PacketOutcome) (reason : Option PacketReason) :
    (s.endPacket l p o outcome reason).2.line = s.line ∧ (s.endPacket l p o outcome reason).2.poll = s.poll
      ∧ (s.endPacket l p o outcome reason).2.notes = s.notes ∧ (s.endPacket l p o outcome reason).2.slots = s.slots
      ∧ (s.endPacket l p o outcome reason).2.circuits = s.circuits
      ∧ (s.endPacket l p o outcome reason).2.lastPacketHandle = s.lastPacketHandle
      ∧ (s.endPacket l p o outcome reason).2.window = s.window ∧ (s.endPacket l p o outcome reason).2.rx = s.rx
      ∧ (s.endPacket l p o outcome reason).2.mailboxes = s.mailboxes
      ∧ (s.endPacket l p o outcome reason).2.link = s.link ∧ (s.endPacket l p o outcome reason).2.pin = s.pin
      ∧ (s.endPacket l p o outcome reason).2.choices = s.choices
      ∧ (s.endPacket l p o outcome reason).2.pending = s.pending
      ∧ (s.endPacket l p o outcome reason).2.rep.window = s.rep.window
      ∧ (s.endPacket l p o outcome reason).2.rep.nextSeq = s.rep.nextSeq
      ∧ (s.endPacket l p o outcome reason).2.rep.resend = s.rep.resend := by
  unfold State.endPacket
  try dsimp only
  all_goals simp

@[simp] theorem State.abortTurn_frame (l : Nat) (p : Packet) :
    (s.abortTurn l p).2.line = s.line ∧ (s.abortTurn l p).2.poll = s.poll ∧ (s.abortTurn l p).2.notes = s.notes
      ∧ (s.abortTurn l p).2.slots = s.slots ∧ (s.abortTurn l p).2.circuits = s.circuits
      ∧ (s.abortTurn l p).2.lastPacketHandle = s.lastPacketHandle ∧ (s.abortTurn l p).2.window = s.window
      ∧ (s.abortTurn l p).2.rx = s.rx ∧ (s.abortTurn l p).2.mailboxes = s.mailboxes
      ∧ (s.abortTurn l p).2.link = s.link ∧ (s.abortTurn l p).2.pin = s.pin ∧ (s.abortTurn l p).2.choices = s.choices
      ∧ (s.abortTurn l p).2.pending = s.pending ∧ (s.abortTurn l p).2.rep.window = s.rep.window
      ∧ (s.abortTurn l p).2.rep.nextSeq = s.rep.nextSeq ∧ (s.abortTurn l p).2.rep.resend = s.rep.resend := by
  unfold State.abortTurn
  try dsimp only
  repeat' split
  all_goals simp

@[simp] theorem State.sendTurn_frame (l : Nat) (p : Packet) :
    (s.sendTurn l p).2.line = s.line ∧ (s.sendTurn l p).2.poll = s.poll ∧ (s.sendTurn l p).2.notes = s.notes
      ∧ (s.sendTurn l p).2.slots = s.slots ∧ (s.sendTurn l p).2.circuits = s.circuits
      ∧ (s.sendTurn l p).2.lastPacketHandle = s.lastPacketHandle ∧ (s.sendTurn l p).2.window = s.window
      ∧ (s.sendTurn l p).2.rx = s.rx ∧ (s.sendTurn l p).2.mailboxes = s.mailboxes ∧ (s.sendTurn l p).2.link = s.link
      ∧ (s.sendTurn l p).2.pin = s.pin ∧ (s.sendTurn l p).2.choices = s.choices
      ∧ (s.sendTurn l p).2.pending = s.pending ∧ (s.sendTurn l p).2.rep.window = s.rep.window
      ∧ (s.sendTurn l p).2.rep.nextSeq = s.rep.nextSeq ∧ (s.sendTurn l p).2.rep.resend = s.rep.resend := by
  unfold State.sendTurn
  try dsimp only
  repeat' split
  all_goals simp

@[simp] theorem State.laneTurn_frame (l slot : Nat) :
    (s.laneTurn l slot).2.line = s.line ∧ (s.laneTurn l slot).2.poll = s.poll ∧ (s.laneTurn l slot).2.notes = s.notes
      ∧ (s.laneTurn l slot).2.slots = s.slots ∧ (s.laneTurn l slot).2.circuits = s.circuits
      ∧ (s.laneTurn l slot).2.lastPacketHandle = s.lastPacketHandle ∧ (s.laneTurn l slot).2.window = s.window
      ∧ (s.laneTurn l slot).2.rx = s.rx ∧ (s.laneTurn l slot).2.mailboxes = s.mailboxes
      ∧ (s.laneTurn l slot).2.link = s.link ∧ (s.laneTurn l slot).2.pin = s.pin
      ∧ (s.laneTurn l slot).2.choices = s.choices ∧ (s.laneTurn l slot).2.pending = s.pending
      ∧ (s.laneTurn l slot).2.rep.window = s.rep.window ∧ (s.laneTurn l slot).2.rep.nextSeq = s.rep.nextSeq
      ∧ (s.laneTurn l slot).2.rep.resend = s.rep.resend := by
  unfold State.laneTurn
  try dsimp only
  repeat' split
  all_goals simp

/-! ## Slot Map and circuits -/

@[simp] theorem State.changeCircuit_frame (n : Nat) (c : Circuit) (new : CircuitState) (reason : CircuitReason) (lost : Option SlotRef) :
    (s.changeCircuit n c new reason lost).line = s.line ∧ (s.changeCircuit n c new reason lost).poll = s.poll
      ∧ (s.changeCircuit n c new reason lost).notes = s.notes ∧ (s.changeCircuit n c new reason lost).slots = s.slots
      ∧ (s.changeCircuit n c new reason lost).lanes = s.lanes
      ∧ (s.changeCircuit n c new reason lost).lastPacketHandle = s.lastPacketHandle
      ∧ (s.changeCircuit n c new reason lost).window = s.window ∧ (s.changeCircuit n c new reason lost).rx = s.rx
      ∧ (s.changeCircuit n c new reason lost).mailboxes = s.mailboxes
      ∧ (s.changeCircuit n c new reason lost).free = s.free ∧ (s.changeCircuit n c new reason lost).link = s.link
      ∧ (s.changeCircuit n c new reason lost).pin = s.pin ∧ (s.changeCircuit n c new reason lost).choices = s.choices
      ∧ (s.changeCircuit n c new reason lost).pending = s.pending
      ∧ (s.changeCircuit n c new reason lost).rep.window = s.rep.window
      ∧ (s.changeCircuit n c new reason lost).rep.nextSeq = s.rep.nextSeq
      ∧ (s.changeCircuit n c new reason lost).rep.resend = s.rep.resend := by
  unfold State.changeCircuit
  try dsimp only
  all_goals simp

@[simp] theorem State.circuitSlotLost_frame (n : Nat) (c : Circuit) (r : SlotRef) :
    (s.circuitSlotLost n c r).line = s.line ∧ (s.circuitSlotLost n c r).poll = s.poll
      ∧ (s.circuitSlotLost n c r).notes = s.notes ∧ (s.circuitSlotLost n c r).slots = s.slots
      ∧ (s.circuitSlotLost n c r).lanes = s.lanes ∧ (s.circuitSlotLost n c r).lastPacketHandle = s.lastPacketHandle
      ∧ (s.circuitSlotLost n c r).window = s.window ∧ (s.circuitSlotLost n c r).rx = s.rx
      ∧ (s.circuitSlotLost n c r).mailboxes = s.mailboxes ∧ (s.circuitSlotLost n c r).free = s.free
      ∧ (s.circuitSlotLost n c r).link = s.link ∧ (s.circuitSlotLost n c r).pin = s.pin
      ∧ (s.circuitSlotLost n c r).choices = s.choices ∧ (s.circuitSlotLost n c r).pending = s.pending
      ∧ (s.circuitSlotLost n c r).rep.window = s.rep.window ∧ (s.circuitSlotLost n c r).rep.nextSeq = s.rep.nextSeq
      ∧ (s.circuitSlotLost n c r).rep.resend = s.rep.resend := by
  unfold State.circuitSlotLost
  try dsimp only
  repeat' split
  all_goals simp

@[simp] theorem State.circuitSlotRegained_frame (n : Nat) :
    (s.circuitSlotRegained n).line = s.line ∧ (s.circuitSlotRegained n).poll = s.poll
      ∧ (s.circuitSlotRegained n).notes = s.notes ∧ (s.circuitSlotRegained n).slots = s.slots
      ∧ (s.circuitSlotRegained n).lanes = s.lanes ∧ (s.circuitSlotRegained n).lastPacketHandle = s.lastPacketHandle
      ∧ (s.circuitSlotRegained n).window = s.window ∧ (s.circuitSlotRegained n).rx = s.rx
      ∧ (s.circuitSlotRegained n).mailboxes = s.mailboxes ∧ (s.circuitSlotRegained n).free = s.free
      ∧ (s.circuitSlotRegained n).link = s.link ∧ (s.circuitSlotRegained n).pin = s.pin
      ∧ (s.circuitSlotRegained n).choices = s.choices ∧ (s.circuitSlotRegained n).pending = s.pending
      ∧ (s.circuitSlotRegained n).rep.window = s.rep.window ∧ (s.circuitSlotRegained n).rep.nextSeq = s.rep.nextSeq
      ∧ (s.circuitSlotRegained n).rep.resend = s.rep.resend := by
  unfold State.circuitSlotRegained
  try dsimp only
  repeat' split
  all_goals simp

@[simp] theorem State.changeCircuits_frame (p : Circuit → Bool) (new : CircuitState) (reason : CircuitReason) :
    (s.changeCircuits p new reason).line = s.line ∧ (s.changeCircuits p new reason).poll = s.poll
      ∧ (s.changeCircuits p new reason).notes = s.notes ∧ (s.changeCircuits p new reason).slots = s.slots
      ∧ (s.changeCircuits p new reason).lanes = s.lanes
      ∧ (s.changeCircuits p new reason).lastPacketHandle = s.lastPacketHandle
      ∧ (s.changeCircuits p new reason).window = s.window ∧ (s.changeCircuits p new reason).rx = s.rx
      ∧ (s.changeCircuits p new reason).mailboxes = s.mailboxes ∧ (s.changeCircuits p new reason).free = s.free
      ∧ (s.changeCircuits p new reason).link = s.link ∧ (s.changeCircuits p new reason).pin = s.pin
      ∧ (s.changeCircuits p new reason).choices = s.choices ∧ (s.changeCircuits p new reason).pending = s.pending
      ∧ (s.changeCircuits p new reason).rep.window = s.rep.window
      ∧ (s.changeCircuits p new reason).rep.nextSeq = s.rep.nextSeq
      ∧ (s.changeCircuits p new reason).rep.resend = s.rep.resend := by
  unfold State.changeCircuits
  generalize (List.range Config.circuits) = l
  induction l generalizing s with
  | nil => simp
  | cons x l ih =>
    simp only [List.foldl_cons, ih]
    repeat' split
    all_goals simp

@[simp] theorem State.sourceOnline_frame (a : Nat) :
    (s.sourceOnline a).line = s.line ∧ (s.sourceOnline a).poll = s.poll ∧ (s.sourceOnline a).notes = s.notes
      ∧ (s.sourceOnline a).slots = s.slots ∧ (s.sourceOnline a).lanes = s.lanes
      ∧ (s.sourceOnline a).lastPacketHandle = s.lastPacketHandle ∧ (s.sourceOnline a).window = s.window
      ∧ (s.sourceOnline a).rx = s.rx ∧ (s.sourceOnline a).mailboxes = s.mailboxes ∧ (s.sourceOnline a).free = s.free
      ∧ (s.sourceOnline a).link = s.link ∧ (s.sourceOnline a).pin = s.pin ∧ (s.sourceOnline a).choices = s.choices
      ∧ (s.sourceOnline a).pending = s.pending ∧ (s.sourceOnline a).rep.window = s.rep.window
      ∧ (s.sourceOnline a).rep.nextSeq = s.rep.nextSeq ∧ (s.sourceOnline a).rep.resend = s.rep.resend := by
  unfold State.sourceOnline
  try dsimp only
  all_goals simp

@[simp] theorem State.sourceLeft_frame (a : Nat) :
    (s.sourceLeft a).line = s.line ∧ (s.sourceLeft a).poll = s.poll ∧ (s.sourceLeft a).notes = s.notes
      ∧ (s.sourceLeft a).slots = s.slots ∧ (s.sourceLeft a).lanes = s.lanes
      ∧ (s.sourceLeft a).lastPacketHandle = s.lastPacketHandle ∧ (s.sourceLeft a).window = s.window
      ∧ (s.sourceLeft a).rx = s.rx ∧ (s.sourceLeft a).mailboxes = s.mailboxes ∧ (s.sourceLeft a).free = s.free
      ∧ (s.sourceLeft a).link = s.link ∧ (s.sourceLeft a).pin = s.pin ∧ (s.sourceLeft a).choices = s.choices
      ∧ (s.sourceLeft a).pending = s.pending ∧ (s.sourceLeft a).rep.window = s.rep.window
      ∧ (s.sourceLeft a).rep.nextSeq = s.rep.nextSeq ∧ (s.sourceLeft a).rep.resend = s.rep.resend := by
  unfold State.sourceLeft
  try dsimp only
  all_goals simp

@[simp] theorem State.muteSourceless_frame :
    s.muteSourceless.line = s.line ∧ s.muteSourceless.poll = s.poll ∧ s.muteSourceless.notes = s.notes
      ∧ s.muteSourceless.slots = s.slots ∧ s.muteSourceless.lanes = s.lanes
      ∧ s.muteSourceless.lastPacketHandle = s.lastPacketHandle ∧ s.muteSourceless.window = s.window
      ∧ s.muteSourceless.rx = s.rx ∧ s.muteSourceless.mailboxes = s.mailboxes ∧ s.muteSourceless.free = s.free
      ∧ s.muteSourceless.link = s.link ∧ s.muteSourceless.pin = s.pin ∧ s.muteSourceless.choices = s.choices
      ∧ s.muteSourceless.pending = s.pending ∧ s.muteSourceless.rep.window = s.rep.window
      ∧ s.muteSourceless.rep.nextSeq = s.rep.nextSeq ∧ s.muteSourceless.rep.resend = s.rep.resend := by
  unfold State.muteSourceless
  try dsimp only
  all_goals simp

@[simp] theorem State.shiftCircuits_frame :
    s.shiftCircuits.line = s.line ∧ s.shiftCircuits.poll = s.poll ∧ s.shiftCircuits.notes = s.notes
      ∧ s.shiftCircuits.slots = s.slots ∧ s.shiftCircuits.lanes = s.lanes
      ∧ s.shiftCircuits.lastPacketHandle = s.lastPacketHandle ∧ s.shiftCircuits.window = s.window
      ∧ s.shiftCircuits.rx = s.rx ∧ s.shiftCircuits.mailboxes = s.mailboxes ∧ s.shiftCircuits.free = s.free
      ∧ s.shiftCircuits.rep = s.rep ∧ s.shiftCircuits.link = s.link ∧ s.shiftCircuits.pin = s.pin
      ∧ s.shiftCircuits.choices = s.choices ∧ s.shiftCircuits.pending = s.pending := by
  unfold State.shiftCircuits
  try dsimp only
  all_goals simp

@[simp] theorem State.silenceCircuits_frame :
    s.silenceCircuits.line = s.line ∧ s.silenceCircuits.poll = s.poll ∧ s.silenceCircuits.notes = s.notes
      ∧ s.silenceCircuits.slots = s.slots ∧ s.silenceCircuits.lanes = s.lanes
      ∧ s.silenceCircuits.lastPacketHandle = s.lastPacketHandle ∧ s.silenceCircuits.window = s.window
      ∧ s.silenceCircuits.rx = s.rx ∧ s.silenceCircuits.mailboxes = s.mailboxes ∧ s.silenceCircuits.free = s.free
      ∧ s.silenceCircuits.rep = s.rep ∧ s.silenceCircuits.link = s.link ∧ s.silenceCircuits.pin = s.pin
      ∧ s.silenceCircuits.choices = s.choices ∧ s.silenceCircuits.pending = s.pending := by
  unfold State.silenceCircuits
  try dsimp only
  all_goals simp

@[simp] theorem State.tellRegained_frame (e : ReclaimEntry) (o : Owner) :
    (s.tellRegained e o).line = s.line ∧ (s.tellRegained e o).poll = s.poll ∧ (s.tellRegained e o).notes = s.notes
      ∧ (s.tellRegained e o).slots = s.slots ∧ (s.tellRegained e o).lanes = s.lanes
      ∧ (s.tellRegained e o).lastPacketHandle = s.lastPacketHandle ∧ (s.tellRegained e o).window = s.window
      ∧ (s.tellRegained e o).rx = s.rx ∧ (s.tellRegained e o).mailboxes = s.mailboxes
      ∧ (s.tellRegained e o).free = s.free ∧ (s.tellRegained e o).link = s.link ∧ (s.tellRegained e o).pin = s.pin
      ∧ (s.tellRegained e o).choices = s.choices ∧ (s.tellRegained e o).pending = s.pending
      ∧ (s.tellRegained e o).rep.window = s.rep.window ∧ (s.tellRegained e o).rep.nextSeq = s.rep.nextSeq
      ∧ (s.tellRegained e o).rep.resend = s.rep.resend := by
  unfold State.tellRegained
  try dsimp only
  repeat' split
  all_goals simp

@[simp] theorem State.freeSlot_frame (o : Owner) (r : SlotRef) :
    (s.freeSlot o r).line = s.line ∧ (s.freeSlot o r).poll = s.poll ∧ (s.freeSlot o r).notes = s.notes
      ∧ (s.freeSlot o r).lanes = s.lanes ∧ (s.freeSlot o r).lastPacketHandle = s.lastPacketHandle
      ∧ (s.freeSlot o r).window = s.window ∧ (s.freeSlot o r).rx = s.rx ∧ (s.freeSlot o r).mailboxes = s.mailboxes
      ∧ (s.freeSlot o r).free = s.free ∧ (s.freeSlot o r).link = s.link ∧ (s.freeSlot o r).pin = s.pin
      ∧ (s.freeSlot o r).choices = s.choices ∧ (s.freeSlot o r).pending = s.pending
      ∧ (s.freeSlot o r).rep.window = s.rep.window ∧ (s.freeSlot o r).rep.nextSeq = s.rep.nextSeq
      ∧ (s.freeSlot o r).rep.resend = s.rep.resend := by
  unfold State.freeSlot
  try dsimp only
  repeat' split
  all_goals simp

@[simp] theorem State.freeSlots_frame (o : Owner) (rs : List SlotRef) :
    (s.freeSlots o rs).line = s.line ∧ (s.freeSlots o rs).poll = s.poll ∧ (s.freeSlots o rs).notes = s.notes
      ∧ (s.freeSlots o rs).lanes = s.lanes ∧ (s.freeSlots o rs).lastPacketHandle = s.lastPacketHandle
      ∧ (s.freeSlots o rs).window = s.window ∧ (s.freeSlots o rs).rx = s.rx
      ∧ (s.freeSlots o rs).mailboxes = s.mailboxes ∧ (s.freeSlots o rs).free = s.free
      ∧ (s.freeSlots o rs).link = s.link ∧ (s.freeSlots o rs).pin = s.pin ∧ (s.freeSlots o rs).choices = s.choices
      ∧ (s.freeSlots o rs).pending = s.pending ∧ (s.freeSlots o rs).rep.window = s.rep.window
      ∧ (s.freeSlots o rs).rep.nextSeq = s.rep.nextSeq ∧ (s.freeSlots o rs).rep.resend = s.rep.resend := by
  unfold State.freeSlots
  induction rs generalizing s with
  | nil => simp
  | cons x l ih =>
    simp only [List.foldl_cons, ih]
    repeat' split
    all_goals simp

@[simp] theorem State.removeCircuit_frame (n : Nat) (c : Circuit) :
    (s.removeCircuit n c).line = s.line ∧ (s.removeCircuit n c).poll = s.poll ∧ (s.removeCircuit n c).notes = s.notes
      ∧ (s.removeCircuit n c).lanes = s.lanes ∧ (s.removeCircuit n c).lastPacketHandle = s.lastPacketHandle
      ∧ (s.removeCircuit n c).window = s.window ∧ (s.removeCircuit n c).rx = s.rx
      ∧ (s.removeCircuit n c).mailboxes = s.mailboxes ∧ (s.removeCircuit n c).free = s.free
      ∧ (s.removeCircuit n c).link = s.link ∧ (s.removeCircuit n c).pin = s.pin
      ∧ (s.removeCircuit n c).choices = s.choices ∧ (s.removeCircuit n c).pending = s.pending
      ∧ (s.removeCircuit n c).rep.window = s.rep.window ∧ (s.removeCircuit n c).rep.nextSeq = s.rep.nextSeq
      ∧ (s.removeCircuit n c).rep.resend = s.rep.resend := by
  unfold State.removeCircuit
  try dsimp only
  all_goals simp

@[simp] theorem State.closeCircuit_frame (n : Nat) (c : Circuit) :
    (s.closeCircuit n c).line = s.line ∧ (s.closeCircuit n c).poll = s.poll ∧ (s.closeCircuit n c).notes = s.notes
      ∧ (s.closeCircuit n c).lanes = s.lanes ∧ (s.closeCircuit n c).lastPacketHandle = s.lastPacketHandle
      ∧ (s.closeCircuit n c).window = s.window ∧ (s.closeCircuit n c).rx = s.rx
      ∧ (s.closeCircuit n c).mailboxes = s.mailboxes ∧ (s.closeCircuit n c).free = s.free
      ∧ (s.closeCircuit n c).link = s.link ∧ (s.closeCircuit n c).pin = s.pin
      ∧ (s.closeCircuit n c).choices = s.choices ∧ (s.closeCircuit n c).pending = s.pending
      ∧ (s.closeCircuit n c).rep.window = s.rep.window ∧ (s.closeCircuit n c).rep.nextSeq = s.rep.nextSeq
      ∧ (s.closeCircuit n c).rep.resend = s.rep.resend := by
  unfold State.closeCircuit
  try dsimp only
  all_goals simp

@[simp] theorem State.closeNoReclaim_frame (n : Nat) (c : Circuit) (r : SlotRef) :
    (s.closeNoReclaim n c r).line = s.line ∧ (s.closeNoReclaim n c r).poll = s.poll
      ∧ (s.closeNoReclaim n c r).notes = s.notes ∧ (s.closeNoReclaim n c r).lanes = s.lanes
      ∧ (s.closeNoReclaim n c r).lastPacketHandle = s.lastPacketHandle ∧ (s.closeNoReclaim n c r).window = s.window
      ∧ (s.closeNoReclaim n c r).rx = s.rx ∧ (s.closeNoReclaim n c r).mailboxes = s.mailboxes
      ∧ (s.closeNoReclaim n c r).free = s.free ∧ (s.closeNoReclaim n c r).link = s.link
      ∧ (s.closeNoReclaim n c r).pin = s.pin ∧ (s.closeNoReclaim n c r).choices = s.choices
      ∧ (s.closeNoReclaim n c r).pending = s.pending ∧ (s.closeNoReclaim n c r).rep.window = s.rep.window
      ∧ (s.closeNoReclaim n c r).rep.nextSeq = s.rep.nextSeq ∧ (s.closeNoReclaim n c r).rep.resend = s.rep.resend := by
  unfold State.closeNoReclaim
  try dsimp only
  all_goals simp

@[simp] theorem State.tellLane_frame (l : Nat) (r : SlotRef) :
    (s.tellLane l r).line = s.line ∧ (s.tellLane l r).poll = s.poll ∧ (s.tellLane l r).notes = s.notes
      ∧ (s.tellLane l r).slots = s.slots ∧ (s.tellLane l r).circuits = s.circuits
      ∧ (s.tellLane l r).lastPacketHandle = s.lastPacketHandle ∧ (s.tellLane l r).mailboxes = s.mailboxes
      ∧ (s.tellLane l r).link = s.link ∧ (s.tellLane l r).pin = s.pin ∧ (s.tellLane l r).choices = s.choices
      ∧ (s.tellLane l r).pending = s.pending ∧ (s.tellLane l r).window.queue = s.window.queue
      ∧ (s.tellLane l r).window.bidCollisions = s.window.bidCollisions
      ∧ (s.tellLane l r).window.ignoredBids = s.window.ignoredBids ∧ (s.tellLane l r).rep.window = s.rep.window
      ∧ (s.tellLane l r).rep.nextSeq = s.rep.nextSeq ∧ (s.tellLane l r).rep.resend = s.rep.resend := by
  unfold State.tellLane
  try dsimp only
  repeat' split
  all_goals simp

@[simp] theorem State.takeLoss_frame (o : Owner) (prec : Nat) (x : Loss) :
    (State.takeLoss o prec s x).line = s.line ∧ (State.takeLoss o prec s x).poll = s.poll
      ∧ (State.takeLoss o prec s x).notes = s.notes
      ∧ (State.takeLoss o prec s x).lastPacketHandle = s.lastPacketHandle
      ∧ (State.takeLoss o prec s x).mailboxes = s.mailboxes ∧ (State.takeLoss o prec s x).link = s.link
      ∧ (State.takeLoss o prec s x).pin = s.pin ∧ (State.takeLoss o prec s x).choices = s.choices
      ∧ (State.takeLoss o prec s x).pending = s.pending ∧ (State.takeLoss o prec s x).window.queue = s.window.queue
      ∧ (State.takeLoss o prec s x).window.bidCollisions = s.window.bidCollisions
      ∧ (State.takeLoss o prec s x).window.ignoredBids = s.window.ignoredBids
      ∧ (State.takeLoss o prec s x).rep.window = s.rep.window
      ∧ (State.takeLoss o prec s x).rep.nextSeq = s.rep.nextSeq
      ∧ (State.takeLoss o prec s x).rep.resend = s.rep.resend := by
  unfold State.takeLoss
  try dsimp only
  repeat' split
  all_goals simp

@[simp] theorem State.claim_entries_frame (rs : List SlotRef) (e : Option MapEntry) :
    (rs.foldl (fun s r => s.setEntry r.1 r.2 e) s).line = s.line
      ∧ (rs.foldl (fun s r => s.setEntry r.1 r.2 e) s).poll = s.poll
      ∧ (rs.foldl (fun s r => s.setEntry r.1 r.2 e) s).notes = s.notes
      ∧ (rs.foldl (fun s r => s.setEntry r.1 r.2 e) s).circuits = s.circuits
      ∧ (rs.foldl (fun s r => s.setEntry r.1 r.2 e) s).lanes = s.lanes
      ∧ (rs.foldl (fun s r => s.setEntry r.1 r.2 e) s).lastPacketHandle = s.lastPacketHandle
      ∧ (rs.foldl (fun s r => s.setEntry r.1 r.2 e) s).window = s.window
      ∧ (rs.foldl (fun s r => s.setEntry r.1 r.2 e) s).rx = s.rx
      ∧ (rs.foldl (fun s r => s.setEntry r.1 r.2 e) s).mailboxes = s.mailboxes
      ∧ (rs.foldl (fun s r => s.setEntry r.1 r.2 e) s).free = s.free
      ∧ (rs.foldl (fun s r => s.setEntry r.1 r.2 e) s).rep = s.rep
      ∧ (rs.foldl (fun s r => s.setEntry r.1 r.2 e) s).link = s.link
      ∧ (rs.foldl (fun s r => s.setEntry r.1 r.2 e) s).pin = s.pin
      ∧ (rs.foldl (fun s r => s.setEntry r.1 r.2 e) s).choices = s.choices
      ∧ (rs.foldl (fun s r => s.setEntry r.1 r.2 e) s).pending = s.pending
      ∧ (rs.foldl (fun s r => s.setEntry r.1 r.2 e) s).slots.reclaim = s.slots.reclaim := by
  induction rs generalizing s with
  | nil => simp
  | cons x l ih =>
    simp only [List.foldl_cons, ih]
    all_goals simp

@[simp] theorem State.losses_taken_frame (o : Owner) (prec : Nat) (xs : List Loss) :
    (xs.foldl (State.takeLoss o prec) s).line = s.line ∧ (xs.foldl (State.takeLoss o prec) s).poll = s.poll
      ∧ (xs.foldl (State.takeLoss o prec) s).notes = s.notes
      ∧ (xs.foldl (State.takeLoss o prec) s).lastPacketHandle = s.lastPacketHandle
      ∧ (xs.foldl (State.takeLoss o prec) s).mailboxes = s.mailboxes
      ∧ (xs.foldl (State.takeLoss o prec) s).link = s.link ∧ (xs.foldl (State.takeLoss o prec) s).pin = s.pin
      ∧ (xs.foldl (State.takeLoss o prec) s).choices = s.choices
      ∧ (xs.foldl (State.takeLoss o prec) s).pending = s.pending
      ∧ (xs.foldl (State.takeLoss o prec) s).window.queue = s.window.queue
      ∧ (xs.foldl (State.takeLoss o prec) s).window.bidCollisions = s.window.bidCollisions
      ∧ (xs.foldl (State.takeLoss o prec) s).window.ignoredBids = s.window.ignoredBids
      ∧ (xs.foldl (State.takeLoss o prec) s).rep.window = s.rep.window
      ∧ (xs.foldl (State.takeLoss o prec) s).rep.nextSeq = s.rep.nextSeq
      ∧ (xs.foldl (State.takeLoss o prec) s).rep.resend = s.rep.resend := by
  induction xs generalizing s with
  | nil => simp
  | cons x l ih =>
    simp only [List.foldl_cons, ih]
    all_goals simp

@[simp] theorem State.applyClaim_frame (o : Owner) (prec : Nat) (rs : List SlotRef) :
    (s.applyClaim o prec rs).line = s.line ∧ (s.applyClaim o prec rs).poll = s.poll
      ∧ (s.applyClaim o prec rs).notes = s.notes ∧ (s.applyClaim o prec rs).lastPacketHandle = s.lastPacketHandle
      ∧ (s.applyClaim o prec rs).mailboxes = s.mailboxes ∧ (s.applyClaim o prec rs).link = s.link
      ∧ (s.applyClaim o prec rs).pin = s.pin ∧ (s.applyClaim o prec rs).choices = s.choices
      ∧ (s.applyClaim o prec rs).pending = s.pending ∧ (s.applyClaim o prec rs).window.queue = s.window.queue
      ∧ (s.applyClaim o prec rs).window.bidCollisions = s.window.bidCollisions
      ∧ (s.applyClaim o prec rs).window.ignoredBids = s.window.ignoredBids
      ∧ (s.applyClaim o prec rs).rep.window = s.rep.window ∧ (s.applyClaim o prec rs).rep.nextSeq = s.rep.nextSeq
      ∧ (s.applyClaim o prec rs).rep.resend = s.rep.resend := by
  unfold State.applyClaim
  try dsimp only
  all_goals simp

@[simp] theorem State.setPrecedence_frame (l prec : Nat) (cutThrough : Bool) :
    (s.setPrecedence l prec cutThrough).line = s.line ∧ (s.setPrecedence l prec cutThrough).poll = s.poll
      ∧ (s.setPrecedence l prec cutThrough).notes = s.notes
      ∧ (s.setPrecedence l prec cutThrough).circuits = s.circuits
      ∧ (s.setPrecedence l prec cutThrough).lastPacketHandle = s.lastPacketHandle
      ∧ (s.setPrecedence l prec cutThrough).window = s.window ∧ (s.setPrecedence l prec cutThrough).rx = s.rx
      ∧ (s.setPrecedence l prec cutThrough).mailboxes = s.mailboxes
      ∧ (s.setPrecedence l prec cutThrough).free = s.free ∧ (s.setPrecedence l prec cutThrough).rep = s.rep
      ∧ (s.setPrecedence l prec cutThrough).link = s.link ∧ (s.setPrecedence l prec cutThrough).pin = s.pin
      ∧ (s.setPrecedence l prec cutThrough).choices = s.choices
      ∧ (s.setPrecedence l prec cutThrough).pending = s.pending := by
  unfold State.setPrecedence
  try dsimp only
  all_goals simp

@[simp] theorem State.applyLaneSet_frame (l prec : Nat) (cutThrough : Bool) (down up : List Nat) :
    (s.applyLaneSet l prec cutThrough down up).line = s.line
      ∧ (s.applyLaneSet l prec cutThrough down up).poll = s.poll
      ∧ (s.applyLaneSet l prec cutThrough down up).notes = s.notes
      ∧ (s.applyLaneSet l prec cutThrough down up).lastPacketHandle = s.lastPacketHandle
      ∧ (s.applyLaneSet l prec cutThrough down up).mailboxes = s.mailboxes
      ∧ (s.applyLaneSet l prec cutThrough down up).link = s.link
      ∧ (s.applyLaneSet l prec cutThrough down up).pin = s.pin
      ∧ (s.applyLaneSet l prec cutThrough down up).choices = s.choices
      ∧ (s.applyLaneSet l prec cutThrough down up).pending = s.pending
      ∧ (s.applyLaneSet l prec cutThrough down up).window.queue = s.window.queue
      ∧ (s.applyLaneSet l prec cutThrough down up).window.bidCollisions = s.window.bidCollisions
      ∧ (s.applyLaneSet l prec cutThrough down up).window.ignoredBids = s.window.ignoredBids
      ∧ (s.applyLaneSet l prec cutThrough down up).rep.window = s.rep.window
      ∧ (s.applyLaneSet l prec cutThrough down up).rep.nextSeq = s.rep.nextSeq
      ∧ (s.applyLaneSet l prec cutThrough down up).rep.resend = s.rep.resend := by
  unfold State.applyLaneSet
  try dsimp only
  all_goals simp

/-! ## Polling -/

@[simp] theorem State.chooseCall_frame :
    s.chooseCall.line = s.line ∧ s.chooseCall.notes = s.notes ∧ s.chooseCall.slots = s.slots
      ∧ s.chooseCall.circuits = s.circuits ∧ s.chooseCall.lanes = s.lanes
      ∧ s.chooseCall.lastPacketHandle = s.lastPacketHandle ∧ s.chooseCall.window = s.window ∧ s.chooseCall.rx = s.rx
      ∧ s.chooseCall.mailboxes = s.mailboxes ∧ s.chooseCall.free = s.free ∧ s.chooseCall.rep = s.rep
      ∧ s.chooseCall.link = s.link ∧ s.chooseCall.pin = s.pin ∧ s.chooseCall.choices = s.choices
      ∧ s.chooseCall.pending = s.pending ∧ s.chooseCall.poll.stations = s.poll.stations := by
  unfold State.chooseCall
  try dsimp only
  repeat' split
  all_goals simp

@[simp] theorem State.makeCall_frame :
    s.makeCall.line = s.line ∧ s.makeCall.slots = s.slots ∧ s.makeCall.circuits = s.circuits
      ∧ s.makeCall.lanes = s.lanes ∧ s.makeCall.lastPacketHandle = s.lastPacketHandle ∧ s.makeCall.window = s.window
      ∧ s.makeCall.rx = s.rx ∧ s.makeCall.mailboxes = s.mailboxes ∧ s.makeCall.free = s.free ∧ s.makeCall.rep = s.rep
      ∧ s.makeCall.link = s.link ∧ s.makeCall.pin = s.pin ∧ s.makeCall.choices = s.choices
      ∧ s.makeCall.pending = s.pending ∧ s.makeCall.poll.pollPointer = s.poll.pollPointer
      ∧ s.makeCall.poll.probePointer = s.poll.probePointer ∧ s.makeCall.poll.call = s.poll.call := by
  unfold State.makeCall
  try dsimp only
  repeat' split
  all_goals simp

@[simp] theorem State.reportStation_frame (a : Nat) (new left : StationState) (reason : StationReason) :
    (s.reportStation a new left reason).line = s.line ∧ (s.reportStation a new left reason).poll = s.poll
      ∧ (s.reportStation a new left reason).notes = s.notes ∧ (s.reportStation a new left reason).slots = s.slots
      ∧ (s.reportStation a new left reason).circuits = s.circuits
      ∧ (s.reportStation a new left reason).lanes = s.lanes
      ∧ (s.reportStation a new left reason).lastPacketHandle = s.lastPacketHandle
      ∧ (s.reportStation a new left reason).window = s.window ∧ (s.reportStation a new left reason).rx = s.rx
      ∧ (s.reportStation a new left reason).mailboxes = s.mailboxes
      ∧ (s.reportStation a new left reason).free = s.free ∧ (s.reportStation a new left reason).link = s.link
      ∧ (s.reportStation a new left reason).pin = s.pin ∧ (s.reportStation a new left reason).choices = s.choices
      ∧ (s.reportStation a new left reason).pending = s.pending
      ∧ (s.reportStation a new left reason).rep.window = s.rep.window
      ∧ (s.reportStation a new left reason).rep.nextSeq = s.rep.nextSeq
      ∧ (s.reportStation a new left reason).rep.resend = s.rep.resend := by
  unfold State.reportStation
  try dsimp only
  all_goals simp

@[simp] theorem State.leaveWindow_frame (a : Nat) :
    (s.leaveWindow a).line = s.line ∧ (s.leaveWindow a).poll = s.poll ∧ (s.leaveWindow a).notes = s.notes
      ∧ (s.leaveWindow a).slots = s.slots ∧ (s.leaveWindow a).circuits = s.circuits
      ∧ (s.leaveWindow a).lanes = s.lanes ∧ (s.leaveWindow a).lastPacketHandle = s.lastPacketHandle
      ∧ (s.leaveWindow a).mailboxes = s.mailboxes ∧ (s.leaveWindow a).link = s.link ∧ (s.leaveWindow a).pin = s.pin
      ∧ (s.leaveWindow a).choices = s.choices ∧ (s.leaveWindow a).pending = s.pending
      ∧ (s.leaveWindow a).window.bidCollisions = s.window.bidCollisions
      ∧ (s.leaveWindow a).window.ignoredBids = s.window.ignoredBids ∧ (s.leaveWindow a).rep.window = s.rep.window
      ∧ (s.leaveWindow a).rep.nextSeq = s.rep.nextSeq ∧ (s.leaveWindow a).rep.resend = s.rep.resend := by
  unfold State.leaveWindow
  try dsimp only
  repeat' split
  all_goals simp

@[simp] theorem State.leaveOnline_frame (a : Nat) (new : StationState) (reason : StationReason) :
    (s.leaveOnline a new reason).line = s.line ∧ (s.leaveOnline a new reason).slots = s.slots
      ∧ (s.leaveOnline a new reason).lanes = s.lanes
      ∧ (s.leaveOnline a new reason).lastPacketHandle = s.lastPacketHandle
      ∧ (s.leaveOnline a new reason).mailboxes = s.mailboxes ∧ (s.leaveOnline a new reason).link = s.link
      ∧ (s.leaveOnline a new reason).pin = s.pin ∧ (s.leaveOnline a new reason).choices = s.choices
      ∧ (s.leaveOnline a new reason).pending = s.pending
      ∧ (s.leaveOnline a new reason).window.bidCollisions = s.window.bidCollisions
      ∧ (s.leaveOnline a new reason).window.ignoredBids = s.window.ignoredBids
      ∧ (s.leaveOnline a new reason).poll.pollPointer = s.poll.pollPointer
      ∧ (s.leaveOnline a new reason).poll.probePointer = s.poll.probePointer
      ∧ (s.leaveOnline a new reason).poll.call = s.poll.call ∧ (s.leaveOnline a new reason).rep.window = s.rep.window
      ∧ (s.leaveOnline a new reason).rep.nextSeq = s.rep.nextSeq
      ∧ (s.leaveOnline a new reason).rep.resend = s.rep.resend := by
  unfold State.leaveOnline
  try dsimp only
  all_goals simp

@[simp] theorem State.doubleLook_frame (a code : Nat) :
    (s.doubleLook a code).line = s.line ∧ (s.doubleLook a code).notes = s.notes
      ∧ (s.doubleLook a code).slots = s.slots ∧ (s.doubleLook a code).circuits = s.circuits
      ∧ (s.doubleLook a code).lanes = s.lanes ∧ (s.doubleLook a code).lastPacketHandle = s.lastPacketHandle
      ∧ (s.doubleLook a code).window = s.window ∧ (s.doubleLook a code).rx = s.rx
      ∧ (s.doubleLook a code).mailboxes = s.mailboxes ∧ (s.doubleLook a code).free = s.free
      ∧ (s.doubleLook a code).link = s.link ∧ (s.doubleLook a code).pin = s.pin
      ∧ (s.doubleLook a code).choices = s.choices ∧ (s.doubleLook a code).pending = s.pending
      ∧ (s.doubleLook a code).poll.pollPointer = s.poll.pollPointer
      ∧ (s.doubleLook a code).poll.probePointer = s.poll.probePointer ∧ (s.doubleLook a code).poll.call = s.poll.call
      ∧ (s.doubleLook a code).rep.window = s.rep.window ∧ (s.doubleLook a code).rep.nextSeq = s.rep.nextSeq
      ∧ (s.doubleLook a code).rep.resend = s.rep.resend := by
  unfold State.doubleLook
  try dsimp only
  repeat' split
  all_goals simp

@[simp] theorem State.askWindow_frame (a : Nat) :
    (s.askWindow a).line = s.line ∧ (s.askWindow a).poll = s.poll ∧ (s.askWindow a).notes = s.notes
      ∧ (s.askWindow a).slots = s.slots ∧ (s.askWindow a).circuits = s.circuits ∧ (s.askWindow a).lanes = s.lanes
      ∧ (s.askWindow a).lastPacketHandle = s.lastPacketHandle ∧ (s.askWindow a).rx = s.rx
      ∧ (s.askWindow a).mailboxes = s.mailboxes ∧ (s.askWindow a).free = s.free ∧ (s.askWindow a).rep = s.rep
      ∧ (s.askWindow a).link = s.link ∧ (s.askWindow a).pin = s.pin ∧ (s.askWindow a).choices = s.choices
      ∧ (s.askWindow a).pending = s.pending ∧ (s.askWindow a).window.window = s.window.window
      ∧ (s.askWindow a).window.bidCollisions = s.window.bidCollisions
      ∧ (s.askWindow a).window.ignoredBids = s.window.ignoredBids := by
  unfold State.askWindow
  try dsimp only
  repeat' split
  all_goals simp

@[simp] theorem State.joinStation_frame (a code : Nat) (echo : Bool) :
    (s.joinStation a code echo).line = s.line ∧ (s.joinStation a code echo).notes = s.notes
      ∧ (s.joinStation a code echo).slots = s.slots ∧ (s.joinStation a code echo).circuits = s.circuits
      ∧ (s.joinStation a code echo).lanes = s.lanes
      ∧ (s.joinStation a code echo).lastPacketHandle = s.lastPacketHandle
      ∧ (s.joinStation a code echo).window = s.window ∧ (s.joinStation a code echo).rx = s.rx
      ∧ (s.joinStation a code echo).mailboxes = s.mailboxes ∧ (s.joinStation a code echo).free = s.free
      ∧ (s.joinStation a code echo).rep = s.rep ∧ (s.joinStation a code echo).link = s.link
      ∧ (s.joinStation a code echo).pin = s.pin ∧ (s.joinStation a code echo).choices = s.choices
      ∧ (s.joinStation a code echo).pending = s.pending
      ∧ (s.joinStation a code echo).poll.pollPointer = s.poll.pollPointer
      ∧ (s.joinStation a code echo).poll.probePointer = s.poll.probePointer
      ∧ (s.joinStation a code echo).poll.call = s.poll.call := by
  unfold State.joinStation
  try dsimp only
  all_goals simp

@[simp] theorem State.becomeOnline_frame (a code : Nat) (request : Bool) :
    (s.becomeOnline a code request).line = s.line ∧ (s.becomeOnline a code request).notes = s.notes
      ∧ (s.becomeOnline a code request).slots = s.slots ∧ (s.becomeOnline a code request).lanes = s.lanes
      ∧ (s.becomeOnline a code request).lastPacketHandle = s.lastPacketHandle
      ∧ (s.becomeOnline a code request).rx = s.rx ∧ (s.becomeOnline a code request).mailboxes = s.mailboxes
      ∧ (s.becomeOnline a code request).free = s.free ∧ (s.becomeOnline a code request).link = s.link
      ∧ (s.becomeOnline a code request).pin = s.pin ∧ (s.becomeOnline a code request).choices = s.choices
      ∧ (s.becomeOnline a code request).pending = s.pending
      ∧ (s.becomeOnline a code request).poll.pollPointer = s.poll.pollPointer
      ∧ (s.becomeOnline a code request).poll.probePointer = s.poll.probePointer
      ∧ (s.becomeOnline a code request).poll.call = s.poll.call
      ∧ (s.becomeOnline a code request).rep.window = s.rep.window
      ∧ (s.becomeOnline a code request).rep.nextSeq = s.rep.nextSeq
      ∧ (s.becomeOnline a code request).rep.resend = s.rep.resend := by
  unfold State.becomeOnline
  try dsimp only
  repeat' split
  all_goals simp

@[simp] theorem State.answerOnline_frame (a code : Nat) (echo request busy : Bool) :
    (s.answerOnline a code echo request busy).line = s.line
      ∧ (s.answerOnline a code echo request busy).slots = s.slots
      ∧ (s.answerOnline a code echo request busy).circuits = s.circuits
      ∧ (s.answerOnline a code echo request busy).lanes = s.lanes
      ∧ (s.answerOnline a code echo request busy).lastPacketHandle = s.lastPacketHandle
      ∧ (s.answerOnline a code echo request busy).rx = s.rx
      ∧ (s.answerOnline a code echo request busy).mailboxes = s.mailboxes
      ∧ (s.answerOnline a code echo request busy).free = s.free
      ∧ (s.answerOnline a code echo request busy).link = s.link
      ∧ (s.answerOnline a code echo request busy).pin = s.pin
      ∧ (s.answerOnline a code echo request busy).choices = s.choices
      ∧ (s.answerOnline a code echo request busy).pending = s.pending
      ∧ (s.answerOnline a code echo request busy).poll.pollPointer = s.poll.pollPointer
      ∧ (s.answerOnline a code echo request busy).poll.probePointer = s.poll.probePointer
      ∧ (s.answerOnline a code echo request busy).poll.call = s.poll.call
      ∧ (s.answerOnline a code echo request busy).rep.window = s.rep.window
      ∧ (s.answerOnline a code echo request busy).rep.nextSeq = s.rep.nextSeq
      ∧ (s.answerOnline a code echo request busy).rep.resend = s.rep.resend := by
  unfold State.answerOnline
  try dsimp only
  repeat' split
  all_goals simp

@[simp] theorem State.missOnline_frame (a : Nat) (malformed : Bool) :
    (s.missOnline a malformed).line = s.line ∧ (s.missOnline a malformed).slots = s.slots
      ∧ (s.missOnline a malformed).lanes = s.lanes ∧ (s.missOnline a malformed).lastPacketHandle = s.lastPacketHandle
      ∧ (s.missOnline a malformed).mailboxes = s.mailboxes ∧ (s.missOnline a malformed).link = s.link
      ∧ (s.missOnline a malformed).pin = s.pin ∧ (s.missOnline a malformed).choices = s.choices
      ∧ (s.missOnline a malformed).pending = s.pending
      ∧ (s.missOnline a malformed).poll.pollPointer = s.poll.pollPointer
      ∧ (s.missOnline a malformed).poll.probePointer = s.poll.probePointer
      ∧ (s.missOnline a malformed).poll.call = s.poll.call ∧ (s.missOnline a malformed).rep.window = s.rep.window
      ∧ (s.missOnline a malformed).rep.nextSeq = s.rep.nextSeq ∧ (s.missOnline a malformed).rep.resend = s.rep.resend := by
  unfold State.missOnline
  try dsimp only
  repeat' split
  all_goals simp

@[simp] theorem State.ringMiss_frame (a : Nat) (malformed : Bool) :
    (s.ringMiss a malformed).line = s.line ∧ (s.ringMiss a malformed).slots = s.slots
      ∧ (s.ringMiss a malformed).lanes = s.lanes ∧ (s.ringMiss a malformed).lastPacketHandle = s.lastPacketHandle
      ∧ (s.ringMiss a malformed).mailboxes = s.mailboxes ∧ (s.ringMiss a malformed).link = s.link
      ∧ (s.ringMiss a malformed).pin = s.pin ∧ (s.ringMiss a malformed).choices = s.choices
      ∧ (s.ringMiss a malformed).pending = s.pending ∧ (s.ringMiss a malformed).poll.pollPointer = s.poll.pollPointer
      ∧ (s.ringMiss a malformed).poll.probePointer = s.poll.probePointer
      ∧ (s.ringMiss a malformed).poll.call = s.poll.call ∧ (s.ringMiss a malformed).rep.window = s.rep.window
      ∧ (s.ringMiss a malformed).rep.nextSeq = s.rep.nextSeq ∧ (s.ringMiss a malformed).rep.resend = s.rep.resend := by
  unfold State.ringMiss
  try dsimp only
  repeat' split
  all_goals simp

@[simp] theorem State.ringValid_frame (a code : Nat) (echo request busy : Bool) :
    (s.ringValid a code echo request busy).line = s.line ∧ (s.ringValid a code echo request busy).slots = s.slots
      ∧ (s.ringValid a code echo request busy).lanes = s.lanes
      ∧ (s.ringValid a code echo request busy).lastPacketHandle = s.lastPacketHandle
      ∧ (s.ringValid a code echo request busy).rx = s.rx
      ∧ (s.ringValid a code echo request busy).mailboxes = s.mailboxes
      ∧ (s.ringValid a code echo request busy).free = s.free ∧ (s.ringValid a code echo request busy).link = s.link
      ∧ (s.ringValid a code echo request busy).pin = s.pin
      ∧ (s.ringValid a code echo request busy).choices = s.choices
      ∧ (s.ringValid a code echo request busy).pending = s.pending
      ∧ (s.ringValid a code echo request busy).poll.pollPointer = s.poll.pollPointer
      ∧ (s.ringValid a code echo request busy).poll.probePointer = s.poll.probePointer
      ∧ (s.ringValid a code echo request busy).poll.call = s.poll.call
      ∧ (s.ringValid a code echo request busy).rep.window = s.rep.window
      ∧ (s.ringValid a code echo request busy).rep.nextSeq = s.rep.nextSeq
      ∧ (s.ringValid a code echo request busy).rep.resend = s.rep.resend := by
  unfold State.ringValid
  try dsimp only
  repeat' split
  all_goals simp

@[simp] theorem State.endQuiet_frame :
    s.endQuiet.poll = s.poll ∧ s.endQuiet.notes = s.notes ∧ s.endQuiet.slots = s.slots
      ∧ s.endQuiet.circuits = s.circuits ∧ s.endQuiet.lanes = s.lanes
      ∧ s.endQuiet.lastPacketHandle = s.lastPacketHandle ∧ s.endQuiet.window = s.window ∧ s.endQuiet.rx = s.rx
      ∧ s.endQuiet.mailboxes = s.mailboxes ∧ s.endQuiet.free = s.free ∧ s.endQuiet.rep = s.rep
      ∧ s.endQuiet.link = s.link ∧ s.endQuiet.pin = s.pin ∧ s.endQuiet.choices = s.choices
      ∧ s.endQuiet.pending = s.pending ∧ s.endQuiet.line.state = s.line.state
      ∧ s.endQuiet.line.cycleCounter = s.line.cycleCounter ∧ s.endQuiet.line.settings = s.line.settings
      ∧ s.endQuiet.line.cycleOpen = s.line.cycleOpen ∧ s.endQuiet.line.sampleDown = s.line.sampleDown
      ∧ s.endQuiet.line.sampleUp = s.line.sampleUp := by
  unfold State.endQuiet
  try dsimp only
  all_goals simp

@[simp] theorem State.countQuiet_frame :
    s.countQuiet.poll = s.poll ∧ s.countQuiet.notes = s.notes ∧ s.countQuiet.slots = s.slots
      ∧ s.countQuiet.circuits = s.circuits ∧ s.countQuiet.lanes = s.lanes
      ∧ s.countQuiet.lastPacketHandle = s.lastPacketHandle ∧ s.countQuiet.window = s.window ∧ s.countQuiet.rx = s.rx
      ∧ s.countQuiet.mailboxes = s.mailboxes ∧ s.countQuiet.free = s.free ∧ s.countQuiet.link = s.link
      ∧ s.countQuiet.pin = s.pin ∧ s.countQuiet.choices = s.choices ∧ s.countQuiet.pending = s.pending
      ∧ s.countQuiet.line.state = s.line.state ∧ s.countQuiet.line.cycleCounter = s.line.cycleCounter
      ∧ s.countQuiet.line.settings = s.line.settings ∧ s.countQuiet.line.cycleOpen = s.line.cycleOpen
      ∧ s.countQuiet.line.sampleDown = s.line.sampleDown ∧ s.countQuiet.line.sampleUp = s.line.sampleUp
      ∧ s.countQuiet.rep.window = s.rep.window ∧ s.countQuiet.rep.nextSeq = s.rep.nextSeq
      ∧ s.countQuiet.rep.resend = s.rep.resend := by
  unfold State.countQuiet
  try dsimp only
  repeat' split
  all_goals simp

@[simp] theorem State.ringAnswer_frame (a : Nat) (x : Answer) :
    (s.ringAnswer a x).slots = s.slots ∧ (s.ringAnswer a x).lanes = s.lanes
      ∧ (s.ringAnswer a x).lastPacketHandle = s.lastPacketHandle ∧ (s.ringAnswer a x).mailboxes = s.mailboxes
      ∧ (s.ringAnswer a x).link = s.link ∧ (s.ringAnswer a x).pin = s.pin ∧ (s.ringAnswer a x).choices = s.choices
      ∧ (s.ringAnswer a x).pending = s.pending ∧ (s.ringAnswer a x).line.state = s.line.state
      ∧ (s.ringAnswer a x).line.cycleCounter = s.line.cycleCounter
      ∧ (s.ringAnswer a x).line.settings = s.line.settings ∧ (s.ringAnswer a x).line.cycleOpen = s.line.cycleOpen
      ∧ (s.ringAnswer a x).line.sampleDown = s.line.sampleDown ∧ (s.ringAnswer a x).line.sampleUp = s.line.sampleUp
      ∧ (s.ringAnswer a x).poll.pollPointer = s.poll.pollPointer
      ∧ (s.ringAnswer a x).poll.probePointer = s.poll.probePointer ∧ (s.ringAnswer a x).poll.call = s.poll.call
      ∧ (s.ringAnswer a x).rep.window = s.rep.window ∧ (s.ringAnswer a x).rep.nextSeq = s.rep.nextSeq
      ∧ (s.ringAnswer a x).rep.resend = s.rep.resend := by
  unfold State.ringAnswer
  try dsimp only
  repeat' split
  all_goals simp

@[simp] theorem State.probeAnswer_frame (a : Nat) (x : Answer) :
    (s.probeAnswer a x).notes = s.notes ∧ (s.probeAnswer a x).slots = s.slots
      ∧ (s.probeAnswer a x).circuits = s.circuits ∧ (s.probeAnswer a x).lanes = s.lanes
      ∧ (s.probeAnswer a x).lastPacketHandle = s.lastPacketHandle ∧ (s.probeAnswer a x).window = s.window
      ∧ (s.probeAnswer a x).rx = s.rx ∧ (s.probeAnswer a x).mailboxes = s.mailboxes
      ∧ (s.probeAnswer a x).free = s.free ∧ (s.probeAnswer a x).link = s.link ∧ (s.probeAnswer a x).pin = s.pin
      ∧ (s.probeAnswer a x).choices = s.choices ∧ (s.probeAnswer a x).pending = s.pending
      ∧ (s.probeAnswer a x).line.state = s.line.state ∧ (s.probeAnswer a x).line.cycleCounter = s.line.cycleCounter
      ∧ (s.probeAnswer a x).line.settings = s.line.settings ∧ (s.probeAnswer a x).line.cycleOpen = s.line.cycleOpen
      ∧ (s.probeAnswer a x).line.sampleDown = s.line.sampleDown ∧ (s.probeAnswer a x).line.sampleUp = s.line.sampleUp
      ∧ (s.probeAnswer a x).poll.pollPointer = s.poll.pollPointer
      ∧ (s.probeAnswer a x).poll.probePointer = s.poll.probePointer ∧ (s.probeAnswer a x).poll.call = s.poll.call
      ∧ (s.probeAnswer a x).rep.window = s.rep.window ∧ (s.probeAnswer a x).rep.nextSeq = s.rep.nextSeq
      ∧ (s.probeAnswer a x).rep.resend = s.rep.resend := by
  unfold State.probeAnswer
  try dsimp only
  repeat' split
  all_goals simp

@[simp] theorem State.judgeAnswer_frame (o : Octet) :
    (s.judgeAnswer o).slots = s.slots ∧ (s.judgeAnswer o).lanes = s.lanes
      ∧ (s.judgeAnswer o).lastPacketHandle = s.lastPacketHandle ∧ (s.judgeAnswer o).mailboxes = s.mailboxes
      ∧ (s.judgeAnswer o).link = s.link ∧ (s.judgeAnswer o).pin = s.pin ∧ (s.judgeAnswer o).choices = s.choices
      ∧ (s.judgeAnswer o).pending = s.pending ∧ (s.judgeAnswer o).line.state = s.line.state
      ∧ (s.judgeAnswer o).line.cycleCounter = s.line.cycleCounter ∧ (s.judgeAnswer o).line.settings = s.line.settings
      ∧ (s.judgeAnswer o).line.cycleOpen = s.line.cycleOpen ∧ (s.judgeAnswer o).line.sampleDown = s.line.sampleDown
      ∧ (s.judgeAnswer o).line.sampleUp = s.line.sampleUp ∧ (s.judgeAnswer o).poll.pollPointer = s.poll.pollPointer
      ∧ (s.judgeAnswer o).poll.probePointer = s.poll.probePointer ∧ (s.judgeAnswer o).poll.call = s.poll.call
      ∧ (s.judgeAnswer o).rep.window = s.rep.window ∧ (s.judgeAnswer o).rep.nextSeq = s.rep.nextSeq
      ∧ (s.judgeAnswer o).rep.resend = s.rep.resend := by
  unfold State.judgeAnswer
  try dsimp only
  repeat' split
  all_goals simp

/-! ## Line -/

@[simp] theorem State.reportLine_frame (new : LineState) (reason : LineReason) :
    (s.reportLine new reason).line = s.line ∧ (s.reportLine new reason).poll = s.poll
      ∧ (s.reportLine new reason).notes = s.notes ∧ (s.reportLine new reason).slots = s.slots
      ∧ (s.reportLine new reason).circuits = s.circuits ∧ (s.reportLine new reason).lanes = s.lanes
      ∧ (s.reportLine new reason).lastPacketHandle = s.lastPacketHandle ∧ (s.reportLine new reason).window = s.window
      ∧ (s.reportLine new reason).rx = s.rx ∧ (s.reportLine new reason).mailboxes = s.mailboxes
      ∧ (s.reportLine new reason).free = s.free ∧ (s.reportLine new reason).link = s.link
      ∧ (s.reportLine new reason).pin = s.pin ∧ (s.reportLine new reason).choices = s.choices
      ∧ (s.reportLine new reason).pending = s.pending ∧ (s.reportLine new reason).rep.window = s.rep.window
      ∧ (s.reportLine new reason).rep.nextSeq = s.rep.nextSeq ∧ (s.reportLine new reason).rep.resend = s.rep.resend := by
  unfold State.reportLine
  try dsimp only
  all_goals simp

@[simp] theorem State.stationDown_frame (a : Nat) :
    (s.stationDown a).line = s.line ∧ (s.stationDown a).notes = s.notes ∧ (s.stationDown a).slots = s.slots
      ∧ (s.stationDown a).circuits = s.circuits ∧ (s.stationDown a).lanes = s.lanes
      ∧ (s.stationDown a).lastPacketHandle = s.lastPacketHandle ∧ (s.stationDown a).window = s.window
      ∧ (s.stationDown a).rx = s.rx ∧ (s.stationDown a).mailboxes = s.mailboxes ∧ (s.stationDown a).free = s.free
      ∧ (s.stationDown a).link = s.link ∧ (s.stationDown a).pin = s.pin ∧ (s.stationDown a).choices = s.choices
      ∧ (s.stationDown a).pending = s.pending ∧ (s.stationDown a).poll.pollPointer = s.poll.pollPointer
      ∧ (s.stationDown a).poll.probePointer = s.poll.probePointer ∧ (s.stationDown a).poll.call = s.poll.call
      ∧ (s.stationDown a).rep.window = s.rep.window ∧ (s.stationDown a).rep.nextSeq = s.rep.nextSeq
      ∧ (s.stationDown a).rep.resend = s.rep.resend := by
  unfold State.stationDown
  try dsimp only
  repeat' split
  all_goals simp

@[simp] theorem State.stationsDown_frame :
    s.stationsDown.line = s.line ∧ s.stationsDown.notes = s.notes ∧ s.stationsDown.slots = s.slots
      ∧ s.stationsDown.circuits = s.circuits ∧ s.stationsDown.lanes = s.lanes
      ∧ s.stationsDown.lastPacketHandle = s.lastPacketHandle ∧ s.stationsDown.window = s.window
      ∧ s.stationsDown.rx = s.rx ∧ s.stationsDown.mailboxes = s.mailboxes ∧ s.stationsDown.free = s.free
      ∧ s.stationsDown.link = s.link ∧ s.stationsDown.pin = s.pin ∧ s.stationsDown.choices = s.choices
      ∧ s.stationsDown.pending = s.pending ∧ s.stationsDown.poll.pollPointer = s.poll.pollPointer
      ∧ s.stationsDown.poll.probePointer = s.poll.probePointer ∧ s.stationsDown.poll.call = s.poll.call
      ∧ s.stationsDown.rep.window = s.rep.window ∧ s.stationsDown.rep.nextSeq = s.rep.nextSeq
      ∧ s.stationsDown.rep.resend = s.rep.resend := by
  unfold State.stationsDown
  generalize (List.range' 1 Config.stations) = l
  induction l generalizing s with
  | nil => simp
  | cons x l ih =>
    simp only [List.foldl_cons, ih]
    all_goals simp

@[simp] theorem State.windowDown_frame :
    s.windowDown.line = s.line ∧ s.windowDown.poll = s.poll ∧ s.windowDown.notes = s.notes
      ∧ s.windowDown.slots = s.slots ∧ s.windowDown.circuits = s.circuits ∧ s.windowDown.lanes = s.lanes
      ∧ s.windowDown.lastPacketHandle = s.lastPacketHandle ∧ s.windowDown.mailboxes = s.mailboxes
      ∧ s.windowDown.link = s.link ∧ s.windowDown.pin = s.pin ∧ s.windowDown.choices = s.choices
      ∧ s.windowDown.pending = s.pending ∧ s.windowDown.window.bidCollisions = s.window.bidCollisions
      ∧ s.windowDown.window.ignoredBids = s.window.ignoredBids ∧ s.windowDown.rep.window = s.rep.window
      ∧ s.windowDown.rep.nextSeq = s.rep.nextSeq ∧ s.windowDown.rep.resend = s.rep.resend := by
  unfold State.windowDown
  try dsimp only
  all_goals simp

@[simp] theorem State.lineDown_frame :
    s.lineDown.line = s.line ∧ s.lineDown.slots = s.slots ∧ s.lineDown.lastPacketHandle = s.lastPacketHandle
      ∧ s.lineDown.mailboxes = s.mailboxes ∧ s.lineDown.link = s.link ∧ s.lineDown.pin = s.pin
      ∧ s.lineDown.choices = s.choices ∧ s.lineDown.pending = s.pending
      ∧ s.lineDown.poll.pollPointer = s.poll.pollPointer ∧ s.lineDown.poll.probePointer = s.poll.probePointer
      ∧ s.lineDown.poll.call = s.poll.call ∧ s.lineDown.rep.window = s.rep.window
      ∧ s.lineDown.rep.nextSeq = s.rep.nextSeq ∧ s.lineDown.rep.resend = s.rep.resend := by
  unfold State.lineDown
  try dsimp only
  all_goals simp

@[simp] theorem State.advance_frame :
    s.advance.poll = s.poll ∧ s.advance.notes = s.notes ∧ s.advance.slots = s.slots ∧ s.advance.circuits = s.circuits
      ∧ s.advance.lanes = s.lanes ∧ s.advance.lastPacketHandle = s.lastPacketHandle ∧ s.advance.window = s.window
      ∧ s.advance.rx = s.rx ∧ s.advance.mailboxes = s.mailboxes ∧ s.advance.free = s.free ∧ s.advance.rep = s.rep
      ∧ s.advance.link = s.link ∧ s.advance.pin = s.pin ∧ s.advance.choices = s.choices
      ∧ s.advance.pending = s.pending ∧ s.advance.line.state = s.line.state
      ∧ s.advance.line.settings = s.line.settings ∧ s.advance.line.startCount = s.line.startCount := by
  unfold State.advance
  try dsimp only
  all_goals simp

@[simp] theorem State.becomeRunning_frame :
    s.becomeRunning.poll = s.poll ∧ s.becomeRunning.notes = s.notes ∧ s.becomeRunning.slots = s.slots
      ∧ s.becomeRunning.lanes = s.lanes ∧ s.becomeRunning.lastPacketHandle = s.lastPacketHandle
      ∧ s.becomeRunning.window = s.window ∧ s.becomeRunning.rx = s.rx ∧ s.becomeRunning.mailboxes = s.mailboxes
      ∧ s.becomeRunning.free = s.free ∧ s.becomeRunning.link = s.link ∧ s.becomeRunning.pin = s.pin
      ∧ s.becomeRunning.choices = s.choices ∧ s.becomeRunning.pending = s.pending
      ∧ s.becomeRunning.line.cycleCounter = s.line.cycleCounter ∧ s.becomeRunning.line.settings = s.line.settings
      ∧ s.becomeRunning.line.startCount = s.line.startCount ∧ s.becomeRunning.line.cycleTotal = s.line.cycleTotal
      ∧ s.becomeRunning.rep.window = s.rep.window ∧ s.becomeRunning.rep.nextSeq = s.rep.nextSeq
      ∧ s.becomeRunning.rep.resend = s.rep.resend := by
  unfold State.becomeRunning
  try dsimp only
  all_goals simp

@[simp] theorem State.windowTick_frame :
    s.windowTick.line = s.line ∧ s.windowTick.poll = s.poll ∧ s.windowTick.notes = s.notes
      ∧ s.windowTick.slots = s.slots ∧ s.windowTick.circuits = s.circuits ∧ s.windowTick.lanes = s.lanes
      ∧ s.windowTick.lastPacketHandle = s.lastPacketHandle ∧ s.windowTick.mailboxes = s.mailboxes
      ∧ s.windowTick.link = s.link ∧ s.windowTick.pin = s.pin ∧ s.windowTick.choices = s.choices
      ∧ s.windowTick.pending = s.pending ∧ s.windowTick.window.queue = s.window.queue
      ∧ s.windowTick.window.bidCollisions = s.window.bidCollisions
      ∧ s.windowTick.window.ignoredBids = s.window.ignoredBids ∧ s.windowTick.rep.window = s.rep.window
      ∧ s.windowTick.rep.nextSeq = s.rep.nextSeq ∧ s.windowTick.rep.resend = s.rep.resend := by
  unfold State.windowTick
  try dsimp only
  repeat' split
  all_goals simp

@[simp] theorem State.grant_frame :
    s.grant.line = s.line ∧ s.grant.notes = s.notes ∧ s.grant.slots = s.slots ∧ s.grant.circuits = s.circuits
      ∧ s.grant.lanes = s.lanes ∧ s.grant.lastPacketHandle = s.lastPacketHandle ∧ s.grant.rx = s.rx
      ∧ s.grant.mailboxes = s.mailboxes ∧ s.grant.free = s.free ∧ s.grant.rep = s.rep ∧ s.grant.link = s.link
      ∧ s.grant.pin = s.pin ∧ s.grant.choices = s.choices ∧ s.grant.pending = s.pending
      ∧ s.grant.poll.pollPointer = s.poll.pollPointer ∧ s.grant.poll.probePointer = s.poll.probePointer
      ∧ s.grant.poll.call = s.poll.call := by
  unfold State.grant
  try dsimp only
  repeat' split
  all_goals simp

@[simp] theorem State.openCycle_frame (c : Octet × Octet) :
    (s.openCycle c).poll = s.poll ∧ (s.openCycle c).notes = s.notes ∧ (s.openCycle c).slots = s.slots
      ∧ (s.openCycle c).circuits = s.circuits ∧ (s.openCycle c).lanes = s.lanes
      ∧ (s.openCycle c).lastPacketHandle = s.lastPacketHandle ∧ (s.openCycle c).window = s.window
      ∧ (s.openCycle c).rx = s.rx ∧ (s.openCycle c).mailboxes = s.mailboxes ∧ (s.openCycle c).free = s.free
      ∧ (s.openCycle c).rep = s.rep ∧ (s.openCycle c).link = s.link ∧ (s.openCycle c).pin = s.pin
      ∧ (s.openCycle c).choices = s.choices ∧ (s.openCycle c).pending = s.pending
      ∧ (s.openCycle c).line.state = s.line.state ∧ (s.openCycle c).line.cycleCounter = s.line.cycleCounter
      ∧ (s.openCycle c).line.settings = s.line.settings ∧ (s.openCycle c).line.cycleOpen = s.line.cycleOpen
      ∧ (s.openCycle c).line.startCount = s.line.startCount := by
  unfold State.openCycle
  try dsimp only
  all_goals simp

@[simp] theorem State.runningStart_frame :
    s.runningStart.slots = s.slots ∧ s.runningStart.lastPacketHandle = s.lastPacketHandle
      ∧ s.runningStart.mailboxes = s.mailboxes ∧ s.runningStart.link = s.link ∧ s.runningStart.pin = s.pin
      ∧ s.runningStart.choices = s.choices ∧ s.runningStart.pending = s.pending
      ∧ s.runningStart.line.state = s.line.state ∧ s.runningStart.line.cycleCounter = s.line.cycleCounter
      ∧ s.runningStart.line.settings = s.line.settings ∧ s.runningStart.line.cycleOpen = s.line.cycleOpen
      ∧ s.runningStart.line.startCount = s.line.startCount ∧ s.runningStart.rep.window = s.rep.window
      ∧ s.runningStart.rep.nextSeq = s.rep.nextSeq ∧ s.runningStart.rep.resend = s.rep.resend := by
  unfold State.runningStart
  try dsimp only
  all_goals simp

@[simp] theorem State.faultLine_frame :
    s.faultLine.slots = s.slots ∧ s.faultLine.lastPacketHandle = s.lastPacketHandle
      ∧ s.faultLine.mailboxes = s.mailboxes ∧ s.faultLine.link = s.link ∧ s.faultLine.pin = s.pin
      ∧ s.faultLine.choices = s.choices ∧ s.faultLine.pending = s.pending ∧ s.faultLine.rep.window = s.rep.window
      ∧ s.faultLine.rep.nextSeq = s.rep.nextSeq ∧ s.faultLine.rep.resend = s.rep.resend := by
  unfold State.faultLine
  try dsimp only
  repeat' split
  all_goals simp

@[simp] theorem State.endCycle_frame (good : Bool) :
    (s.endCycle good).slots = s.slots ∧ (s.endCycle good).lastPacketHandle = s.lastPacketHandle
      ∧ (s.endCycle good).mailboxes = s.mailboxes ∧ (s.endCycle good).link = s.link ∧ (s.endCycle good).pin = s.pin
      ∧ (s.endCycle good).choices = s.choices ∧ (s.endCycle good).pending = s.pending
      ∧ (s.endCycle good).rep.window = s.rep.window ∧ (s.endCycle good).rep.nextSeq = s.rep.nextSeq
      ∧ (s.endCycle good).rep.resend = s.rep.resend := by
  unfold State.endCycle
  try dsimp only
  repeat' split
  all_goals simp

/-! ## Host link -/

@[simp] theorem State.linkFault_frame (cause : LinkFaultCause) :
    (s.linkFault cause).line = s.line ∧ (s.linkFault cause).poll = s.poll ∧ (s.linkFault cause).notes = s.notes
      ∧ (s.linkFault cause).slots = s.slots ∧ (s.linkFault cause).circuits = s.circuits
      ∧ (s.linkFault cause).lanes = s.lanes ∧ (s.linkFault cause).lastPacketHandle = s.lastPacketHandle
      ∧ (s.linkFault cause).window = s.window ∧ (s.linkFault cause).rx = s.rx
      ∧ (s.linkFault cause).mailboxes = s.mailboxes ∧ (s.linkFault cause).free = s.free
      ∧ (s.linkFault cause).pin = s.pin ∧ (s.linkFault cause).choices = s.choices
      ∧ (s.linkFault cause).pending = s.pending ∧ (s.linkFault cause).link.rate = s.link.rate
      ∧ (s.linkFault cause).link.intake = s.link.intake ∧ (s.linkFault cause).link.hold = s.link.hold
      ∧ (s.linkFault cause).link.replies = s.link.replies ∧ (s.linkFault cause).link.tx = s.link.tx
      ∧ (s.linkFault cause).link.rxLow = s.link.rxLow ∧ (s.linkFault cause).rep.window = s.rep.window
      ∧ (s.linkFault cause).rep.nextSeq = s.rep.nextSeq ∧ (s.linkFault cause).rep.resend = s.rep.resend := by
  unfold State.linkFault
  try dsimp only
  repeat' split
  all_goals simp

@[simp] theorem State.offerFrame_frame (f : Frame) :
    (s.offerFrame f).line = s.line ∧ (s.offerFrame f).poll = s.poll ∧ (s.offerFrame f).notes = s.notes
      ∧ (s.offerFrame f).slots = s.slots ∧ (s.offerFrame f).circuits = s.circuits ∧ (s.offerFrame f).lanes = s.lanes
      ∧ (s.offerFrame f).lastPacketHandle = s.lastPacketHandle ∧ (s.offerFrame f).window = s.window
      ∧ (s.offerFrame f).rx = s.rx ∧ (s.offerFrame f).mailboxes = s.mailboxes ∧ (s.offerFrame f).free = s.free
      ∧ (s.offerFrame f).pin = s.pin ∧ (s.offerFrame f).choices = s.choices ∧ (s.offerFrame f).pending = s.pending
      ∧ (s.offerFrame f).link.rate = s.link.rate ∧ (s.offerFrame f).link.hold = s.link.hold
      ∧ (s.offerFrame f).link.replies = s.link.replies ∧ (s.offerFrame f).link.tx = s.link.tx
      ∧ (s.offerFrame f).link.rxLow = s.link.rxLow ∧ (s.offerFrame f).rep.window = s.rep.window
      ∧ (s.offerFrame f).rep.nextSeq = s.rep.nextSeq ∧ (s.offerFrame f).rep.resend = s.rep.resend := by
  unfold State.offerFrame
  try dsimp only
  repeat' split
  all_goals simp

@[simp] theorem State.frameOctet_frame (o : Octet) :
    (s.frameOctet o).line = s.line ∧ (s.frameOctet o).poll = s.poll ∧ (s.frameOctet o).notes = s.notes
      ∧ (s.frameOctet o).slots = s.slots ∧ (s.frameOctet o).circuits = s.circuits ∧ (s.frameOctet o).lanes = s.lanes
      ∧ (s.frameOctet o).lastPacketHandle = s.lastPacketHandle ∧ (s.frameOctet o).window = s.window
      ∧ (s.frameOctet o).rx = s.rx ∧ (s.frameOctet o).mailboxes = s.mailboxes ∧ (s.frameOctet o).free = s.free
      ∧ (s.frameOctet o).pin = s.pin ∧ (s.frameOctet o).choices = s.choices ∧ (s.frameOctet o).pending = s.pending
      ∧ (s.frameOctet o).link.rate = s.link.rate ∧ (s.frameOctet o).link.hold = s.link.hold
      ∧ (s.frameOctet o).link.replies = s.link.replies ∧ (s.frameOctet o).link.tx = s.link.tx
      ∧ (s.frameOctet o).link.rxLow = s.link.rxLow ∧ (s.frameOctet o).rep.window = s.rep.window
      ∧ (s.frameOctet o).rep.nextSeq = s.rep.nextSeq ∧ (s.frameOctet o).rep.resend = s.rep.resend := by
  unfold State.frameOctet
  try dsimp only
  repeat' split
  all_goals simp

@[simp] theorem State.framerOctet_frame (o : Octet) :
    (s.framerOctet o).line = s.line ∧ (s.framerOctet o).poll = s.poll ∧ (s.framerOctet o).notes = s.notes
      ∧ (s.framerOctet o).slots = s.slots ∧ (s.framerOctet o).circuits = s.circuits
      ∧ (s.framerOctet o).lanes = s.lanes ∧ (s.framerOctet o).lastPacketHandle = s.lastPacketHandle
      ∧ (s.framerOctet o).window = s.window ∧ (s.framerOctet o).rx = s.rx ∧ (s.framerOctet o).mailboxes = s.mailboxes
      ∧ (s.framerOctet o).free = s.free ∧ (s.framerOctet o).pin = s.pin ∧ (s.framerOctet o).choices = s.choices
      ∧ (s.framerOctet o).pending = s.pending ∧ (s.framerOctet o).link.rate = s.link.rate
      ∧ (s.framerOctet o).link.hold = s.link.hold ∧ (s.framerOctet o).link.replies = s.link.replies
      ∧ (s.framerOctet o).link.tx = s.link.tx ∧ (s.framerOctet o).link.rxLow = s.link.rxLow
      ∧ (s.framerOctet o).rep.window = s.rep.window ∧ (s.framerOctet o).rep.nextSeq = s.rep.nextSeq
      ∧ (s.framerOctet o).rep.resend = s.rep.resend := by
  unfold State.framerOctet
  try dsimp only
  repeat' split
  all_goals simp

@[simp] theorem State.framingError_frame :
    s.framingError.line = s.line ∧ s.framingError.poll = s.poll ∧ s.framingError.notes = s.notes
      ∧ s.framingError.slots = s.slots ∧ s.framingError.circuits = s.circuits ∧ s.framingError.lanes = s.lanes
      ∧ s.framingError.lastPacketHandle = s.lastPacketHandle ∧ s.framingError.window = s.window
      ∧ s.framingError.rx = s.rx ∧ s.framingError.mailboxes = s.mailboxes ∧ s.framingError.free = s.free
      ∧ s.framingError.pin = s.pin ∧ s.framingError.choices = s.choices ∧ s.framingError.pending = s.pending
      ∧ s.framingError.link.rate = s.link.rate ∧ s.framingError.link.intake = s.link.intake
      ∧ s.framingError.link.hold = s.link.hold ∧ s.framingError.link.replies = s.link.replies
      ∧ s.framingError.link.tx = s.link.tx ∧ s.framingError.link.rxLow = s.link.rxLow
      ∧ s.framingError.rep.window = s.rep.window ∧ s.framingError.rep.nextSeq = s.rep.nextSeq
      ∧ s.framingError.rep.resend = s.rep.resend := by
  unfold State.framingError
  try dsimp only
  repeat' split
  all_goals simp

/-! ## Requests -/

@[simp] theorem State.departs_frame (a : Nat) (wasOnline : Bool) (new : StationState) (reason : StationReason) :
    (s.departs a wasOnline new reason).line = s.line ∧ (s.departs a wasOnline new reason).slots = s.slots
      ∧ (s.departs a wasOnline new reason).lanes = s.lanes
      ∧ (s.departs a wasOnline new reason).lastPacketHandle = s.lastPacketHandle
      ∧ (s.departs a wasOnline new reason).mailboxes = s.mailboxes ∧ (s.departs a wasOnline new reason).link = s.link
      ∧ (s.departs a wasOnline new reason).pin = s.pin ∧ (s.departs a wasOnline new reason).choices = s.choices
      ∧ (s.departs a wasOnline new reason).pending = s.pending
      ∧ (s.departs a wasOnline new reason).window.bidCollisions = s.window.bidCollisions
      ∧ (s.departs a wasOnline new reason).window.ignoredBids = s.window.ignoredBids
      ∧ (s.departs a wasOnline new reason).poll.pollPointer = s.poll.pollPointer
      ∧ (s.departs a wasOnline new reason).poll.probePointer = s.poll.probePointer
      ∧ (s.departs a wasOnline new reason).poll.call = s.poll.call
      ∧ (s.departs a wasOnline new reason).rep.window = s.rep.window
      ∧ (s.departs a wasOnline new reason).rep.nextSeq = s.rep.nextSeq
      ∧ (s.departs a wasOnline new reason).rep.resend = s.rep.resend := by
  unfold State.departs
  try dsimp only
  repeat' split
  all_goals simp

@[simp] theorem State.withdraw_frame (a : Nat) :
    (s.withdraw a).line = s.line ∧ (s.withdraw a).slots = s.slots ∧ (s.withdraw a).lanes = s.lanes
      ∧ (s.withdraw a).lastPacketHandle = s.lastPacketHandle ∧ (s.withdraw a).mailboxes = s.mailboxes
      ∧ (s.withdraw a).link = s.link ∧ (s.withdraw a).pin = s.pin ∧ (s.withdraw a).choices = s.choices
      ∧ (s.withdraw a).pending = s.pending ∧ (s.withdraw a).window.bidCollisions = s.window.bidCollisions
      ∧ (s.withdraw a).window.ignoredBids = s.window.ignoredBids
      ∧ (s.withdraw a).poll.pollPointer = s.poll.pollPointer ∧ (s.withdraw a).poll.probePointer = s.poll.probePointer
      ∧ (s.withdraw a).poll.call = s.poll.call ∧ (s.withdraw a).rep.window = s.rep.window
      ∧ (s.withdraw a).rep.nextSeq = s.rep.nextSeq ∧ (s.withdraw a).rep.resend = s.rep.resend := by
  unfold State.withdraw
  try dsimp only
  all_goals simp

@[simp] theorem State.bar_frame (a : Nat) :
    (s.bar a).line = s.line ∧ (s.bar a).slots = s.slots ∧ (s.bar a).lanes = s.lanes
      ∧ (s.bar a).lastPacketHandle = s.lastPacketHandle ∧ (s.bar a).mailboxes = s.mailboxes ∧ (s.bar a).link = s.link
      ∧ (s.bar a).pin = s.pin ∧ (s.bar a).choices = s.choices ∧ (s.bar a).pending = s.pending
      ∧ (s.bar a).window.bidCollisions = s.window.bidCollisions ∧ (s.bar a).window.ignoredBids = s.window.ignoredBids
      ∧ (s.bar a).poll.pollPointer = s.poll.pollPointer ∧ (s.bar a).poll.probePointer = s.poll.probePointer
      ∧ (s.bar a).poll.call = s.poll.call ∧ (s.bar a).rep.window = s.rep.window
      ∧ (s.bar a).rep.nextSeq = s.rep.nextSeq ∧ (s.bar a).rep.resend = s.rep.resend := by
  unfold State.bar
  try dsimp only
  all_goals simp

@[simp] theorem State.startLine_frame :
    s.startLine.poll = s.poll ∧ s.startLine.notes = s.notes ∧ s.startLine.slots = s.slots
      ∧ s.startLine.circuits = s.circuits ∧ s.startLine.lanes = s.lanes
      ∧ s.startLine.lastPacketHandle = s.lastPacketHandle ∧ s.startLine.window = s.window ∧ s.startLine.rx = s.rx
      ∧ s.startLine.mailboxes = s.mailboxes ∧ s.startLine.free = s.free ∧ s.startLine.link = s.link
      ∧ s.startLine.pin = s.pin ∧ s.startLine.choices = s.choices ∧ s.startLine.pending = s.pending
      ∧ s.startLine.line.settings = s.line.settings ∧ s.startLine.line.cycleTotal = s.line.cycleTotal
      ∧ s.startLine.line.sampleDown = s.line.sampleDown ∧ s.startLine.line.sampleUp = s.line.sampleUp
      ∧ s.startLine.rep.window = s.rep.window ∧ s.startLine.rep.nextSeq = s.rep.nextSeq
      ∧ s.startLine.rep.resend = s.rep.resend := by
  unfold State.startLine
  try dsimp only
  all_goals simp

@[simp] theorem State.stopLine_frame :
    s.stopLine.slots = s.slots ∧ s.stopLine.lastPacketHandle = s.lastPacketHandle ∧ s.stopLine.mailboxes = s.mailboxes
      ∧ s.stopLine.link = s.link ∧ s.stopLine.pin = s.pin ∧ s.stopLine.choices = s.choices
      ∧ s.stopLine.pending = s.pending ∧ s.stopLine.poll.pollPointer = s.poll.pollPointer
      ∧ s.stopLine.poll.probePointer = s.poll.probePointer ∧ s.stopLine.poll.call = s.poll.call
      ∧ s.stopLine.rep.window = s.rep.window ∧ s.stopLine.rep.nextSeq = s.rep.nextSeq
      ∧ s.stopLine.rep.resend = s.rep.resend := by
  unfold State.stopLine
  try dsimp only
  repeat' split
  all_goals simp

@[simp] theorem State.resetPackets_frame (l : Nat) (ps : List Packet) :
    (ps.foldl (State.resetPacket l) s).line = s.line ∧ (ps.foldl (State.resetPacket l) s).poll = s.poll
      ∧ (ps.foldl (State.resetPacket l) s).notes = s.notes ∧ (ps.foldl (State.resetPacket l) s).slots = s.slots
      ∧ (ps.foldl (State.resetPacket l) s).circuits = s.circuits
      ∧ (ps.foldl (State.resetPacket l) s).lastPacketHandle = s.lastPacketHandle
      ∧ (ps.foldl (State.resetPacket l) s).window = s.window ∧ (ps.foldl (State.resetPacket l) s).rx = s.rx
      ∧ (ps.foldl (State.resetPacket l) s).mailboxes = s.mailboxes ∧ (ps.foldl (State.resetPacket l) s).link = s.link
      ∧ (ps.foldl (State.resetPacket l) s).pin = s.pin ∧ (ps.foldl (State.resetPacket l) s).choices = s.choices
      ∧ (ps.foldl (State.resetPacket l) s).pending = s.pending
      ∧ (ps.foldl (State.resetPacket l) s).rep.window = s.rep.window
      ∧ (ps.foldl (State.resetPacket l) s).rep.nextSeq = s.rep.nextSeq
      ∧ (ps.foldl (State.resetPacket l) s).rep.resend = s.rep.resend := by
  induction ps generalizing s with
  | nil => simp
  | cons x l ih =>
    simp only [List.foldl_cons, ih, State.resetPacket]
    simp

@[simp] theorem State.resetLane_frame (l : Nat) :
    (s.resetLane l).line = s.line ∧ (s.resetLane l).poll = s.poll ∧ (s.resetLane l).notes = s.notes
      ∧ (s.resetLane l).slots = s.slots ∧ (s.resetLane l).circuits = s.circuits
      ∧ (s.resetLane l).lastPacketHandle = s.lastPacketHandle ∧ (s.resetLane l).window = s.window
      ∧ (s.resetLane l).rx = s.rx ∧ (s.resetLane l).mailboxes = s.mailboxes ∧ (s.resetLane l).link = s.link
      ∧ (s.resetLane l).pin = s.pin ∧ (s.resetLane l).choices = s.choices ∧ (s.resetLane l).pending = s.pending
      ∧ (s.resetLane l).rep.window = s.rep.window ∧ (s.resetLane l).rep.nextSeq = s.rep.nextSeq
      ∧ (s.resetLane l).rep.resend = s.rep.resend := by
  unfold State.resetLane
  try dsimp only
  all_goals simp

@[simp] theorem State.openCircuit_frame (n : Nat) (f : CircuitOpenFields) :
    (s.openCircuit n f).line = s.line ∧ (s.openCircuit n f).poll = s.poll ∧ (s.openCircuit n f).notes = s.notes
      ∧ (s.openCircuit n f).lastPacketHandle = s.lastPacketHandle ∧ (s.openCircuit n f).mailboxes = s.mailboxes
      ∧ (s.openCircuit n f).link = s.link ∧ (s.openCircuit n f).pin = s.pin ∧ (s.openCircuit n f).choices = s.choices
      ∧ (s.openCircuit n f).pending = s.pending ∧ (s.openCircuit n f).window.queue = s.window.queue
      ∧ (s.openCircuit n f).window.bidCollisions = s.window.bidCollisions
      ∧ (s.openCircuit n f).window.ignoredBids = s.window.ignoredBids ∧ (s.openCircuit n f).rep.window = s.rep.window
      ∧ (s.openCircuit n f).rep.nextSeq = s.rep.nextSeq ∧ (s.openCircuit n f).rep.resend = s.rep.resend := by
  unfold State.openCircuit
  try dsimp only
  all_goals simp

@[simp] theorem State.modPacket_frame (l h : Nat) (f : Packet → Packet) :
    (s.modPacket l h f).line = s.line ∧ (s.modPacket l h f).poll = s.poll ∧ (s.modPacket l h f).notes = s.notes
      ∧ (s.modPacket l h f).slots = s.slots ∧ (s.modPacket l h f).circuits = s.circuits
      ∧ (s.modPacket l h f).lastPacketHandle = s.lastPacketHandle ∧ (s.modPacket l h f).window = s.window
      ∧ (s.modPacket l h f).rx = s.rx ∧ (s.modPacket l h f).mailboxes = s.mailboxes
      ∧ (s.modPacket l h f).free = s.free ∧ (s.modPacket l h f).rep = s.rep ∧ (s.modPacket l h f).link = s.link
      ∧ (s.modPacket l h f).pin = s.pin ∧ (s.modPacket l h f).choices = s.choices
      ∧ (s.modPacket l h f).pending = s.pending := by
  unfold State.modPacket
  try dsimp only
  all_goals simp

@[simp] theorem State.cancelSending_frame (l : Nat) (p : Packet) :
    (s.cancelSending l p).line = s.line ∧ (s.cancelSending l p).poll = s.poll ∧ (s.cancelSending l p).notes = s.notes
      ∧ (s.cancelSending l p).slots = s.slots ∧ (s.cancelSending l p).circuits = s.circuits
      ∧ (s.cancelSending l p).lastPacketHandle = s.lastPacketHandle ∧ (s.cancelSending l p).window = s.window
      ∧ (s.cancelSending l p).rx = s.rx ∧ (s.cancelSending l p).mailboxes = s.mailboxes
      ∧ (s.cancelSending l p).free = s.free ∧ (s.cancelSending l p).rep = s.rep ∧ (s.cancelSending l p).link = s.link
      ∧ (s.cancelSending l p).pin = s.pin ∧ (s.cancelSending l p).choices = s.choices
      ∧ (s.cancelSending l p).pending = s.pending := by
  unfold State.cancelSending
  try dsimp only
  all_goals simp

@[simp] theorem State.changeRate_frame (code : Nat) :
    (s.changeRate code).line = s.line ∧ (s.changeRate code).poll = s.poll ∧ (s.changeRate code).notes = s.notes
      ∧ (s.changeRate code).slots = s.slots ∧ (s.changeRate code).circuits = s.circuits
      ∧ (s.changeRate code).lanes = s.lanes ∧ (s.changeRate code).lastPacketHandle = s.lastPacketHandle
      ∧ (s.changeRate code).window = s.window ∧ (s.changeRate code).rx = s.rx
      ∧ (s.changeRate code).mailboxes = s.mailboxes ∧ (s.changeRate code).free = s.free
      ∧ (s.changeRate code).rep = s.rep ∧ (s.changeRate code).pin = s.pin ∧ (s.changeRate code).choices = s.choices
      ∧ (s.changeRate code).pending = s.pending ∧ (s.changeRate code).link.intake = s.link.intake
      ∧ (s.changeRate code).link.replies = s.link.replies ∧ (s.changeRate code).link.tx = s.link.tx
      ∧ (s.changeRate code).link.faultCount = s.link.faultCount ∧ (s.changeRate code).link.rxLow = s.link.rxLow := by
  unfold State.changeRate
  try dsimp only
  all_goals simp

end Sys2Proof.Machine
end

