-- ==== Sys2Proof/Laws/Ops.lean ====
section
/-! SUPPORT. What the shared operations do: table reads after writes, the taking of a request, the transmitter's choice. -/

namespace Sys2Proof.Machine

variable (s : State)

/-! ## Reads after writes -/

theorem getElem?_modify_self (l : List α) (n : Nat) (f : α → α) (h : n < l.length) :
    (l.modify n f)[n]? = some (f l[n]) := by
  simp [h]

theorem State.station_modStation_self (a : Nat) (f : Station → Station) (h₁ : 1 ≤ a)
    (h₂ : a ≤ s.poll.stations.length) : (s.modStation a f).station a = f (s.station a) := by
  cases a with
  | zero => omega
  | succ n =>
    have : n < s.poll.stations.length := by omega
    simp [State.station, State.modStation, this]

theorem State.station_modStation_ne (a b : Nat) (f : Station → Station) (h : b ≠ a) :
    (s.modStation a f).station b = s.station b := by
  cases a with
  | zero => rfl
  | succ n =>
    cases b with
    | zero => rfl
    | succ m =>
      have : n ≠ m := by omega
      simp [State.station, State.modStation, this]

theorem State.lane_modLane_self (l : Nat) (f : Lane → Lane) (h : l < s.lanes.length) :
    (s.modLane l f).lane l = f (s.lane l) := by
  simp [State.lane, State.modLane, h]

theorem State.lane_modLane_ne (l k : Nat) (f : Lane → Lane) (h : k ≠ l) : (s.modLane l f).lane k = s.lane k := by
  simp [State.lane, State.modLane, Ne.symm h]

theorem State.mailbox_modMailbox_self (m : Nat) (f : Mailbox → Mailbox) (h : m < s.mailboxes.length) :
    (s.modMailbox m f).mailbox m = f (s.mailbox m) := by
  simp [State.mailbox, State.modMailbox, h]

theorem State.mailbox_modMailbox_ne (m k : Nat) (f : Mailbox → Mailbox) (h : k ≠ m) :
    (s.modMailbox m f).mailbox k = s.mailbox k := by
  simp [State.mailbox, State.modMailbox, Ne.symm h]

theorem State.circuit_setCircuit_self (n : Nat) (x : Option Circuit) (h : n < s.circuits.length) :
    (s.setCircuit n x).circuit n = x := by
  simp [State.circuit, State.setCircuit, h]

theorem State.circuit_setCircuit_ne (n k : Nat) (x : Option Circuit) (h : k ≠ n) :
    (s.setCircuit n x).circuit k = s.circuit k := by
  simp [State.circuit, State.setCircuit, Ne.symm h]

theorem State.setEntry_side_self (d : Dir) (slot : Nat) (e : Option MapEntry) :
    (s.setEntry d slot e).slots.side d = setSlot (s.slots.side d) slot e := by
  cases d <;> rfl

theorem State.setEntry_side_ne (d d' : Dir) (slot : Nat) (e : Option MapEntry) (h : d' ≠ d) :
    (s.setEntry d slot e).slots.side d' = s.slots.side d' := by
  cases d <;> cases d' <;> first | rfl | exact absurd rfl h

theorem atSlot_setSlot_self (l : List (Option α)) (slot : Nat) (x : Option α) (h₁ : Config.firstPayload ≤ slot)
    (h₂ : slot - Config.firstPayload < l.length) : atSlot (setSlot l slot x) slot = x := by
  simp [atSlot, setSlot, h₁, h₂]

theorem atSlot_setSlot_ne (l : List (Option α)) (slot k : Nat) (x : Option α) (h : k ≠ slot) :
    atSlot (setSlot l slot x) k = atSlot l k := by
  unfold atSlot setSlot
  by_cases h₁ : Config.firstPayload ≤ slot
  · by_cases h₂ : Config.firstPayload ≤ k
    · have : slot - Config.firstPayload ≠ k - Config.firstPayload := by omega
      simp [h₁, h₂, this]
    · simp [h₂]
  · simp [h₁]

theorem State.mapEntry_setEntry_self (d : Dir) (slot : Nat) (e : Option MapEntry) (h₁ : Config.firstPayload ≤ slot)
    (h₂ : slot - Config.firstPayload < (s.slots.side d).length) : (s.setEntry d slot e).mapEntry d slot = e := by
  rw [State.mapEntry, State.setEntry_side_self, atSlot_setSlot_self _ _ _ h₁ h₂]

theorem State.mapEntry_setEntry_ne (d d' : Dir) (slot k : Nat) (e : Option MapEntry) (h : d' ≠ d ∨ k ≠ slot) :
    (s.setEntry d slot e).mapEntry d' k = s.mapEntry d' k := by
  by_cases hd : d' = d
  · subst hd
    rw [State.mapEntry, State.setEntry_side_self, atSlot_setSlot_ne _ _ _ _ (h.resolve_left (fun f => f rfl))]
    rfl
  · rw [State.mapEntry, State.setEntry_side_ne _ _ _ _ _ hd]
    rfl

/-! ## The transmitter's choice (R166) -/

theorem ReportUnit.Sends.refl (u : ReportUnit) : u.Sends u :=
  ⟨rfl, List.prefix_refl _, List.suffix_refl _, rfl, rfl, rfl⟩

theorem Settles.refl : Settles s s where
  line := rfl
  poll := rfl
  notes := rfl
  slots := rfl
  circuits := rfl
  lanes := rfl
  lastPacketHandle := rfl
  window := rfl
  rx := rfl
  mailboxes := rfl
  free := rfl
  pin := rfl
  pending := rfl
  rep := .refl _
  link := rfl
  busy := fun _ => rfl

/-- A report that starts comes from the front of what is unsent, or from the resend list. -/
theorem State.startReport_sends : s.rep.Sends s.startReport.rep := by
  unfold State.startReport
  split
  · next _ x _ h => exact ⟨rfl, List.prefix_refl _, ⟨[x], by simp [h]⟩, rfl, rfl, rfl⟩
  · next h₁ h₂ =>
    exact ⟨by simp [h₂], List.prefix_append _ _, List.suffix_refl _, rfl, rfl, rfl⟩
  · exact .refl _

/-- A report that starts changes the report unit and the transmitter only. -/
theorem State.startReport_settles (h : s.link.tx = .idle) : Settles s s.startReport where
  line := by unfold State.startReport; split <;> rfl
  poll := by unfold State.startReport; split <;> rfl
  notes := by unfold State.startReport; split <;> rfl
  slots := by unfold State.startReport; split <;> rfl
  circuits := by unfold State.startReport; split <;> rfl
  lanes := by unfold State.startReport; split <;> rfl
  lastPacketHandle := by unfold State.startReport; split <;> rfl
  window := by unfold State.startReport; split <;> rfl
  rx := by unfold State.startReport; split <;> rfl
  mailboxes := by unfold State.startReport; split <;> rfl
  free := by unfold State.startReport; split <;> rfl
  pin := by unfold State.startReport; split <;> rfl
  pending := by unfold State.startReport; split <;> rfl
  rep := s.startReport_sends
  link := by unfold State.startReport; split <;> rfl
  busy := fun hb => absurd h hb

/-- A reply that starts changes the transmitter only. -/
theorem State.startReply_settles (h : s.link.tx = .idle) : Settles s s.startReply :=
  { Settles.refl s with link := rfl, busy := fun hb => absurd h hb }

/-- The end of every event: the state settles (R166). -/
theorem State.arbitrate_settles : Settles s s.arbitrate := by
  unfold State.arbitrate
  split
  · next h =>
    have hi := h.2.2
    split
    · exact .refl s
    · exact s.startReply_settles hi
    · exact s.startReport_settles hi
    · have e₁ := State.startReply_settles { s with choices := s.choices + 1 } hi
      have e₂ := State.startReport_settles { s with choices := s.choices + 1 } hi
      dsimp only
      split
      · exact { e₁ with busy := fun hb => absurd hi hb }
      · exact { e₂ with busy := fun hb => absurd hi hb }
  · exact .refl s

/-! ### What the choice starts (R166, R181, R184) -/

theorem ReportUnit.available_iff (u : ReportUnit) :
    u.available = true ↔ u.resend ≠ [] ∨ (u.window.length < 8 ∧ u.queue ≠ []) := by
  simp [ReportUnit.available, Config.reportWindow]

theorem NextFrame.of_reply (h : s.link.replies ≠ []) : NextFrame s s.startReply where
  reply := fun _ => rfl
  resend := fun _ _ h₂ _ => absurd h₂ h
  fresh := fun _ _ h₂ _ _ _ => absurd h₂ h
  idle := fun h₂ _ _ => absurd h₂ h

theorem NextFrame.of_report (h : s.link.replies = []) (ha : s.rep.available = true) : NextFrame s s.startReport where
  reply := fun h₂ => absurd h h₂
  resend := fun x rest _ h₃ => by unfold State.startReport; rw [h₃]
  fresh := fun r q _ h₃ _ h₅ => by unfold State.startReport; rw [h₃, h₅]
  idle := fun _ h₃ h₄ => by
    rw [ReportUnit.available_iff] at ha
    rcases ha with ha | ⟨ha, hb⟩
    · exact absurd h₃ ha
    · rcases h₄ with h₄ | h₄
      · omega
      · exact absurd h₄ hb

theorem NextFrame.of_nothing (h : s.link.replies = []) (ha : s.rep.available = false) : NextFrame s s where
  reply := fun h₂ => absurd h h₂
  resend := fun x rest _ h₃ => by simp [ReportUnit.available, h₃] at ha
  fresh := fun r q _ h₃ h₄ h₅ => by simp [ReportUnit.available, h₃, h₅, Config.reportWindow] at ha; omega
  idle := fun _ _ _ => rfl

/-- One state follows from the choice at the end of a frame. -/
theorem NextFrame.unique {u t t' : State} (h : NextFrame u t) (h' : NextFrame u t') : t = t' := by
  by_cases hr : u.link.replies = []
  · cases hs : u.rep.resend with
    | cons x rest => rw [h.resend x rest hr hs, h'.resend x rest hr hs]
    | nil =>
      cases hq : u.rep.queue with
      | nil => rw [h.idle hr hs (.inr hq), h'.idle hr hs (.inr hq)]
      | cons r q =>
        by_cases hw : u.rep.window.length < 8
        · rw [h.fresh r q hr hs hw hq, h'.fresh r q hr hs hw hq]
        · rw [h.idle hr hs (.inl (by omega)), h'.idle hr hs (.inl (by omega))]
  · rw [h.reply hr, h'.reply hr]

/-- What the choice at the end of an event starts. -/
theorem State.arbitrate_chooses : Chooses s s.arbitrate where
  held := fun h => by
    unfold State.arbitrate
    rw [if_neg]
    rintro ⟨h₁, h₂, h₃⟩
    rcases h with h | h | h
    · exact h h₁
    · simp [h₂] at h
    · exact h h₃
  one := fun h₁ h₂ h₃ h => by
    rw [← ReportUnit.available_iff] at h
    unfold State.arbitrate
    rw [if_pos ⟨h₁, h₂, h₃⟩]
    cases hr : s.link.replies.isEmpty <;> cases ha : s.rep.available <;> simp at hr
    · exact .of_reply s hr
    · exact absurd ⟨hr, ha⟩ h
    · exact .of_nothing s hr ha
    · exact .of_report s hr ha
  both := fun h₁ h₂ h₃ hr ha => by
    rw [← ReportUnit.available_iff] at ha
    have he : s.link.replies.isEmpty = false := by simpa using hr
    unfold State.arbitrate
    rw [if_pos ⟨h₁, h₂, h₃⟩, he, ha]
    dsimp only
    split
    · exact .inl rfl
    · refine .inr ⟨_, .of_report { s with choices := s.choices + 1, link := { s.link with replies := [] } } rfl ha, ?_⟩
      rw [ReportUnit.available_iff] at ha
      unfold State.startReport
      split <;> simp_all

/-- The transmitter is not given a choice while it is busy. -/
theorem State.arbitrate_busy (h : s.link.tx ≠ .idle) : s.arbitrate = s := by
  unfold State.arbitrate
  rw [if_neg (fun hh => h hh.2.2)]

/-- An event answers next, and the state settles. -/
theorem event_next : ∃ t, event s = .next t ∧ Settles s t ∧ Chooses s t :=
  ⟨_, rfl, s.arbitrate_settles, s.arbitrate_chooses⟩

/-! ## The taking of a request (R164) -/

/-- The state with the oldest frame gone from the intake. -/
def State.afterTaking : State := { s with link := { s.link with intake := s.link.intake.tail } }

theorem takeFrame_of_canTake (f : Frame) (h : CanTake s f) : s.takeFrame f = some s.afterTaking := by
  obtain ⟨h₁, h₂, h₃, h₄⟩ := h
  unfold State.takeFrame
  rw [if_pos ⟨h₁, h₂, h₃⟩]
  rcases h₄ with h₄ | ⟨h₄, h₅⟩
  · cases hi : s.link.intake with
    | nil => rw [hi] at h₄; simp at h₄
    | cons g rest =>
      rw [hi] at h₄
      simp only [List.head?_cons, Option.some.injEq] at h₄
      simp [h₄, State.afterTaking, hi]
  · have e : s.afterTaking = s := by
      cases s
      rename_i line poll notes slots circuits lanes lastPacketHandle window rx mailboxes free rep link pin choices pending
      cases link
      simp_all [State.afterTaking]
    rw [h₄]
    simp [h₅, e]

theorem takeFrame_of_not_canTake (f : Frame) (h : ¬CanTake s f) : s.takeFrame f = none := by
  unfold State.takeFrame
  split
  · next hc =>
    split
    · next hi =>
      split
      · rfl
      · next hl => exact absurd ⟨hc.1, hc.2.1, hc.2.2, .inr ⟨hi, by simpa using hl⟩⟩ h
    · next g rest hi =>
      split
      · next hg => exact absurd ⟨hc.1, hc.2.1, hc.2.2, .inl (by simp [hi, hg])⟩ h
      · rfl
  · rfl

/-- A request that can be taken is answered: its work is done on the state without its frame, the reply joins the queue, and
the state settles. -/
theorem serve_next (f : Frame) (work : State → Answered) (h : CanTake s f) :
    serve f work s
      = .next (((work s.afterTaking).1.queueReply (replyKind f.kind) f.tag (work s.afterTaking).2).arbitrate) := by
  simp [serve, takeFrame_of_canTake s f h]

/-- A request that cannot be taken changes nothing. -/
theorem serve_skip (f : Frame) (work : State → Answered) (h : ¬CanTake s f) : serve f work s = .next s := by
  simp [serve, takeFrame_of_not_canTake s f h]

/-- The form in which statements about requests are proved: the work's effect, with its reply, settles. -/
theorem serve_settles (f : Frame) (work : State → Answered) (u : State) (h : CanTake s f)
    (hu : (work s.afterTaking).1.queueReply (replyKind f.kind) f.tag (work s.afterTaking).2 = u) :
    ∃ t, serve f work s = .next t ∧ Settles u t ∧ Chooses u t :=
  ⟨_, serve_next s f work h, hu ▸ State.arbitrate_settles _, hu ▸ State.arbitrate_chooses _⟩

/-- A reply to the request's frame, on the state it found. -/
theorem afterTaking_queueReply (kind tag : Octet) (body : List Octet) :
    s.afterTaking.queueReply kind tag body = s.replied kind tag body := rfl

/-! ## The report unit (R175, R178, R180) -/

/-- A report of a kind that is never coalesced. -/
theorem handOver_room (u : ReportUnit) (r : Report) (h₁ : coalesce u.queue r = none) (h₂ : u.full = false) :
    u.handOver r = u.append r := by
  simp [ReportUnit.handOver, h₁, h₂]

theorem handOver_full (u : ReportUnit) (r : Report) (h₁ : coalesce u.queue r = none) (h₂ : u.full = true) :
    u.handOver r = { u with lostCount := sat16 u.lostCount, kindsLost := u.kindsLost ||| (1#16 <<< r.kindIndex) } := by
  simp [ReportUnit.handOver, h₁, h₂]

theorem handOver_folded (u : ReportUnit) (r : Report) (q : List Report) (h : coalesce u.queue r = some q) :
    u.handOver r = { u with queue := q } := by
  simp [ReportUnit.handOver, h]

/-- Folding keeps the length of the queue. -/
theorem foldInto_length (p : Report → Bool) (f : Report → Report) (k : Nat) (q q' : List Report)
    (h : foldInto p f k q = some q') : q'.length = q.length := by
  induction q generalizing k q' with
  | nil => cases k <;> simp [foldInto] at h
  | cons r q ih =>
    unfold foldInto at h
    split at h
    · cases k with
      | zero => simp at h; simp [← h]
      | succ k =>
        simp only [Option.map_eq_some_iff] at h
        obtain ⟨x, hx, rfl⟩ := h
        simp [ih k x hx]
    · simp only [Option.map_eq_some_iff] at h
      obtain ⟨x, hx, rfl⟩ := h
      simp [ih k x hx]

theorem coalesce_length (q q' : List Report) (r : Report) (h : coalesce q r = some q') : q'.length = q.length := by
  unfold coalesce at h
  split at h <;> first | exact foldInto_length _ _ _ _ _ h | cases h

/-- What the handing over of a report can change: the queue grows by at most one report, and the window, the numbers, the
resend list and the Completion List stay. -/
theorem handOver_frame (u : ReportUnit) (r : Report) :
    (u.handOver r).window = u.window ∧ (u.handOver r).nextSeq = u.nextSeq ∧ (u.handOver r).resend = u.resend
      ∧ (u.handOver r).entries = u.entries := by
  unfold ReportUnit.handOver
  split
  · exact ⟨rfl, rfl, rfl, rfl⟩
  · split <;> exact ⟨rfl, rfl, rfl, rfl⟩

/-! ## Handles (R50, R121) -/

/-- A handle is a number from 1 to 65535. -/
theorem handleAfter_range (h : Nat) : 1 ≤ handleAfter h ∧ handleAfter h ≤ 65535 := by
  unfold handleAfter
  split <;> omega

theorem searchHandle_range (live : List Nat) (n last : Nat) :
    1 ≤ searchHandle live n last ∧ searchHandle live n last ≤ 65535 := by
  induction n generalizing last with
  | zero => exact handleAfter_range last
  | succ n ih =>
    unfold searchHandle
    split
    · exact ih _
    · exact handleAfter_range last

/-! ## Blocks (R109) -/

/-- Every packet holds at least one block. -/
theorem blocksFor_pos (n : Nat) : 1 ≤ blocksFor n := Nat.le_max_left _ _

/-- A packet of at most 512 octets holds at most 16 blocks. -/
theorem blocksFor_le (n : Nat) (h : n ≤ 512) : blocksFor n ≤ 16 := by
  unfold blocksFor
  simp only [Config.blockSize]
  omega

end Sys2Proof.Machine
end

