-- ==== Sys2Proof/Laws/Commands.lean ====
section
/-! SUPPORT. What a request and an event give, what taking a frame leaves, the report unit, the handles, the octets of replies and
characters. -/

namespace Sys2Proof.Machine

/-- A request that can be taken gives what its work and its reply make of the state (R164). -/
theorem gives_of_serve {c : Instr} {s : State} (f : Frame) (work : State → Answered) (u : State)
    (he : exec c s = serve f work s) (h : CanTake s f)
    (hu : (work s.afterTaking).1.queueReply (replyKind f.kind) f.tag (work s.afterTaking).2 = u) : Gives c s u := by
  obtain ⟨t, h1, h2⟩ := serve_settles s f work u h hu
  exact ⟨t, he.trans h1, h2⟩

/-- An event gives the state its work leaves, before the transmitter's choice (R166). -/
theorem gives_of_event {c : Instr} {s : State} (u v : State) (he : exec c s = event v) (hu : v = u) : Gives c s u :=
    by
  subst hu
  exact ⟨_, he, v.arbitrate_settles, v.arbitrate_chooses⟩

@[simp] theorem afterTaking_line (s : State) : s.afterTaking.line = s.line := rfl

@[simp] theorem afterTaking_poll (s : State) : s.afterTaking.poll = s.poll := rfl

@[simp] theorem afterTaking_notes (s : State) : s.afterTaking.notes = s.notes := rfl

@[simp] theorem afterTaking_slots (s : State) : s.afterTaking.slots = s.slots := rfl

@[simp] theorem afterTaking_circuits (s : State) : s.afterTaking.circuits = s.circuits := rfl

@[simp] theorem afterTaking_lanes (s : State) : s.afterTaking.lanes = s.lanes := rfl

@[simp] theorem afterTaking_window (s : State) : s.afterTaking.window = s.window := rfl

@[simp] theorem afterTaking_rx (s : State) : s.afterTaking.rx = s.rx := rfl

@[simp] theorem afterTaking_mailboxes (s : State) : s.afterTaking.mailboxes = s.mailboxes := rfl

@[simp] theorem afterTaking_mailbox (s : State) (m) : s.afterTaking.mailbox m = s.mailbox m := rfl

@[simp] theorem afterTaking_lane (s : State) (m) : s.afterTaking.lane m = s.lane m := rfl

@[simp] theorem afterTaking_circuit (s : State) (m) : s.afterTaking.circuit m = s.circuit m := rfl

@[simp] theorem afterTaking_free (s : State) : s.afterTaking.free = s.free := rfl

@[simp] theorem afterTaking_rep (s : State) : s.afterTaking.rep = s.rep := rfl

@[simp] theorem afterTaking_liveNotes (s : State) : s.afterTaking.liveNotes = s.liveNotes := rfl

@[simp] theorem afterTaking_placesHeld (s : State) : s.afterTaking.placesHeld = s.placesHeld := rfl

@[simp] theorem afterTaking_livePackets (s : State) : s.afterTaking.livePackets = s.livePackets := rfl

@[simp] theorem afterTaking_nextPacket (s : State) : s.afterTaking.nextPacket = s.nextPacket := rfl

@[simp] theorem afterTaking_station (s : State) (a : Nat) : s.afterTaking.station a = s.station a := by cases a <;> rfl

theorem afterTaking_modStation_queueReply (s : State) (a f kind tag body) : (s.afterTaking.modStation a f).queueReply kind tag body = (s.modStation a f).replied kind tag body := by cases a <;> rfl

/-- A request whose work leaves the host link alone gives the work's state with the reply queued. -/
theorem gives_of_reply {c : Instr} {s : State} (f : Frame) (work : State → Answered) (v : State) (r : List Octet)
    (he : exec c s = serve f work s) (h : CanTake s f) (hw : work s.afterTaking = (v, r)) (hl : v.link =
      s.afterTaking.link) :
    Gives c s (State.replied { v with link := s.link } (replyKind f.kind) f.tag r) := by
  refine gives_of_serve f work _ he h ?_
  rw [hw]
  have : ∀ (l : HostLink) (b1 b2 b3), v.link = l → v.queueReply b1 b2 b3 = { v with link := { l with replies := l.replies ++ [{ kind := b1, tag := b2, body := b3 }] } } := by
    intro l b1 b2 b3 hl; subst hl; rfl
  rw [this _ _ _ _ hl]; rfl

/-- With nothing lost, the transfer moves the oldest completions into the room of the queue (R180). -/
theorem transferSteps_without_loss (now : BitVec 16) (n : Nat) (u : ReportUnit) (h : u.lostCount = 0) (hn :
    u.entries.length ≤ n) :
    u.transferSteps now n = { u with
      queue := u.queue ++ (u.entries.map Completion.report).take (64 - (u.queue.length + u.window.length))
      entries := u.entries.drop (64 - (u.queue.length + u.window.length)) } := by
  induction n generalizing u with
  | zero =>
    have : u.entries = [] := List.length_eq_zero_iff.mp (by omega)
    cases u; simp_all [ReportUnit.transferSteps]
  | succ n ih =>
    unfold ReportUnit.transferSteps
    by_cases hf : u.full = true
    · rw [if_pos hf]
      have : 64 - (u.queue.length + u.window.length) = 0 := by
        simp [ReportUnit.full, Config.reportQueue] at hf; omega
      rw [this]; simp
    · rw [if_neg hf, if_neg (by omega)]
      have hr : u.queue.length + u.window.length < 64 := by simpa [ReportUnit.full, Config.reportQueue] using hf
      split
      · next he => cases u; simp_all
      · next e rest he =>
        rw [ih _ (by exact h) (by simp [he] at hn; simpa using hn)]
        have e1 : 64 - (u.queue.length + u.window.length) = (64 - (u.queue.length + 1 + u.window.length)) + 1 := by omega
        simp only [ReportUnit.append, List.length_append, List.length_singleton, he, e1, List.map_cons, List.take_succ_cons, List.drop_succ_cons, List.append_assoc, List.singleton_append]

/-- A full Report Queue takes nothing (R180). -/
theorem transfer_full (now : BitVec 16) (u : ReportUnit) (h : u.full = true) : u.transfer now = u := by
  unfold ReportUnit.transfer ReportUnit.transferSteps; rw [if_pos h]

/-- With reports lost, REPORTS_LOST goes first (R178, R180). -/
theorem transfer_with_loss (now : BitVec 16) (u : ReportUnit) (h : u.full = false) (hl : 0 < u.lostCount) :
    u.transfer now = ReportUnit.transferSteps now u.entries.length
      { u.append (.reportsLost u.lostCount u.kindsLost now) with lostCount := 0, kindsLost := 0 } := by
  unfold ReportUnit.transfer; rw [ReportUnit.transferSteps, if_neg (by simp [h]), if_pos hl]

/-- The transfer leaves the resend list. -/
theorem transfer_keeps_resend (now : BitVec 16) (u : ReportUnit) : (u.transfer now).resend = u.resend := by
  unfold ReportUnit.transfer
  generalize u.entries.length + 1 = n
  induction n generalizing u with
  | zero => rfl
  | succ n ih =>
    unfold ReportUnit.transferSteps
    split
    · rfl
    · split
      · rw [ih]; rfl
      · split
        · rfl
        · rw [ih]; rfl

/-- Folding passes over a report that is not of the kind. -/
theorem foldInto_skip (p f) (k : Nat) (r : Report) (q) (h : p r = false) : foldInto p f k (r :: q) = (foldInto p f k
    q).map (r :: ·) := by
  cases k <;> simp [foldInto, h]

/-- Folding changes the report it is looking for. -/
theorem foldInto_here (p f) (r : Report) (q) (h : p r = true) : foldInto p f 0 (r :: q) = some (f r :: q) := by
  simp [foldInto, h]

/-- Folding passes over the earlier reports of the kind. -/
theorem foldInto_pass (p f) (k : Nat) (r : Report) (q) (h : p r = true) : foldInto p f (k+1) (r :: q) = (foldInto p f
    k q).map (r :: ·) := by
  simp [foldInto, h]

/-- Folding that finds nothing has met at most `k` reports of the kind. -/
theorem foldInto_none_countP (p f) (k : Nat) (q : List Report) (h : foldInto p f k q = none) : q.countP p ≤ k := by
  induction q generalizing k with
  | nil => simp
  | cons r q ih =>
    unfold foldInto at h
    split at h
    · next hp =>
      rw [List.countP_cons_of_pos hp]
      cases k with
      | zero => simp at h
      | succ k => simp only [Option.map_eq_none_iff] at h; have := ih k h; omega
    · next hp =>
      rw [List.countP_cons_of_neg hp]
      simp only [Option.map_eq_none_iff] at h; exact ih k h

/-- Folding keeps every count that folding one report keeps. -/
theorem foldInto_countP (p f) (pr : Report → Bool) (hf : ∀ r, pr (f r) = pr r) (k : Nat) (q q' : List Report)
    (h : foldInto p f k q = some q') : q'.countP pr = q.countP pr := by
  induction q generalizing k q' with
  | nil => cases k <;> simp [foldInto] at h
  | cons r q ih =>
    unfold foldInto at h
    split at h
    · cases k with
      | zero => simp only [Option.some.injEq] at h; subst h; rw [List.countP_cons, List.countP_cons, hf]
      | succ k =>
        obtain ⟨w, hw, rfl⟩ := Option.map_eq_some_iff.mp h
        rw [List.countP_cons, List.countP_cons, ih k w hw]
    · obtain ⟨w, hw, rfl⟩ := Option.map_eq_some_iff.mp h
      rw [List.countP_cons, List.countP_cons, ih k w hw]

/-- Coalescing keeps every count that folding one report keeps (R176, R177). -/
theorem coalesce_countP (q q' : List Report) (r : Report) (pr : Report → Bool) (hf : ∀ old, pr (old.fold r) = pr old)
    (h : coalesce q r = some q') : q'.countP pr = q.countP pr := by
  unfold coalesce at h
  split at h
  · exact foldInto_countP _ _ pr hf _ _ _ h
  · exact foldInto_countP _ _ pr hf _ _ _ h
  · exact foldInto_countP _ _ pr hf _ _ _ h
  · exact foldInto_countP _ _ pr hf _ _ _ h
  · exact absurd h (by simp)

/-- Folding keeps a report's kind and key (R176, R177). -/
theorem fold_keeps_key (r : Report) :
    (∀ a old, Report.isConditionOf a (old.fold r) = Report.isConditionOf a old)
      ∧ (∀ m old, Report.isMailWaitingOf m (old.fold r) = Report.isMailWaitingOf m old)
      ∧ (∀ m old, Report.isMailDroppedOf m (old.fold r) = Report.isMailDroppedOf m old)
      ∧ ∀ old, Report.isLinkFault (old.fold r) = Report.isLinkFault old := by
  refine ⟨fun a old => ?_, fun m old => ?_, fun m old => ?_, fun old => ?_⟩ <;> cases old <;> cases r <;> rfl

/-- A search that ends on a live handle has tried every handle of its range. -/
theorem searchHandle_exhausts (live : List Nat) (n last : Nat) (h : searchHandle live n last ∈ live) :
    ∀ k, k ≤ n → handleAfter^[k] (handleAfter last) ∈ live := by
  induction n generalizing last with
  | zero => intro k hk; obtain rfl : k = 0 := by omega
            exact h
  | succ n ih =>
    unfold searchHandle at h
    split at h
    · next hm =>
      intro k hk
      cases k with
      | zero => exact hm
      | succ k => rw [Function.iterate_succ_apply]; exact ih _ h k (by omega)
    · next hm => exact absurd h hm

/-- The k-th handle after a handle, counted around 1 to 65535. -/
theorem iterate_handleAfter (c k : Nat) (h1 : 1 ≤ c) (h2 : c ≤ 65535) : handleAfter^[k] c = (c - 1 + k) % 65535 + 1 :=
    by
  induction k with
  | zero => simp; omega
  | succ k ih => rw [Function.iterate_succ_apply', ih]; unfold handleAfter; split <;> omega

/-- The next handle is not live, when fewer than 65535 are (R50, R121). -/
theorem nextHandle_fresh (live : List Nat) (last : Nat) (hl : live.length < 65535) : nextHandle live last ∉ live := by
  intro h
  have := searchHandle_exhausts live live.length last h
  obtain ⟨r1, r2⟩ := handleAfter_range last
  have hsub : (List.range (live.length + 1)).map (fun k => handleAfter^[k] (handleAfter last)) ⊆ live := by
    intro x hx
    obtain ⟨k, hk, rfl⟩ := List.mem_map.mp hx
    exact this k (by simp at hk; omega)
  have hnd : ((List.range (live.length + 1)).map (fun k => handleAfter^[k] (handleAfter last))).Nodup := by
    refine List.Nodup.map_on ?_ List.nodup_range
    intro x hx y hy hxy
    simp only [List.mem_range] at hx hy
    simp only [iterate_handleAfter _ _ r1 r2] at hxy
    omega
  have := (hnd.subperm hsub).length_le
  simp at this

/-- The next handle is the one after the last given, when that is not live (R50, R121). -/
theorem nextHandle_next (live : List Nat) (last : Nat) (h : handleAfter last ∉ live) : nextHandle live last =
    handleAfter last := by
  unfold nextHandle; cases live.length with
  | zero => rfl
  | succ n => unfold searchHandle; rw [if_neg h]

/-- The search stops at the first handle after `last`, in wrapping order, that is not live, or runs out of tries. -/
theorem searchHandle_first (live : List Nat) (n last : Nat) :
    ∃ k, searchHandle live n last = handleAfter^[k + 1] last ∧ ∀ m, m < k → handleAfter^[m + 1] last ∈ live := by
  induction n generalizing last with
  | zero => exact ⟨0, rfl, fun m h => absurd h (by omega)⟩
  | succ n ih =>
    unfold searchHandle
    split
    · next hm =>
      obtain ⟨k, h1, h2⟩ := ih (handleAfter last)
      refine ⟨k + 1, h1, fun m h => ?_⟩
      cases m with
      | zero => exact hm
      | succ m => exact h2 m (by omega)
    · exact ⟨0, rfl, fun m h => absurd h (by omega)⟩

/-- Every handle between the last given and the next is live (R50, R121). -/
theorem nextHandle_first (live : List Nat) (last : Nat) :
    ∃ k, nextHandle live last = handleAfter^[k + 1] last ∧ ∀ m, m < k → handleAfter^[m + 1] last ∈ live :=
  searchHandle_first live live.length last

/-- Every live note handle has a Completion List place (R179). -/
theorem liveNotes_length_le (s : State) : s.liveNotes.length ≤ s.placesHeld := by
  unfold State.liveNotes State.placesHeld
  rw [List.length_append, List.length_map]
  refine Nat.le_trans (Nat.add_le_add (le_refl _) (List.length_filterMap_le _ _)) (by omega)

/-- Every live packet handle has a Completion List place (R179). -/
theorem livePackets_length_le (s : State) : s.livePackets.length ≤ s.placesHeld := by
  unfold State.livePackets State.placesHeld
  rw [List.length_append, List.length_flatMap]
  refine Nat.le_trans (Nat.add_le_add (le_refl _) (List.length_filterMap_le _ _)) (by simp; omega)

/-- The ten bit times of a character (R158). -/
theorem characterLevels_eq (o : Octet) : characterLevels o = [false, o.getLsbD 0, o.getLsbD 1, o.getLsbD 2, o.getLsbD
    3, o.getLsbD 4, o.getLsbD 5, o.getLsbD 6, o.getLsbD 7, true] := rfl

/-- Eight data bits, lowest first, are the octet they were taken from (R158). -/
theorem octetOfBits_getLsbD (o : Octet) : octetOfBits [o.getLsbD 0, o.getLsbD 1, o.getLsbD 2, o.getLsbD 3, o.getLsbD
    4, o.getLsbD 5, o.getLsbD 6, o.getLsbD 7] = o := by
  revert o; decide

/-- While a frame goes out, the transmit line carries the characters of its octets (R158, R161). -/
theorem transmitLevel_of_frame (s : State) (f : Frame) (h : s.txFrame = some f) (k b : Nat) (o : Octet) (ho :
    f.wire[k]? = some o) :
    s.transmitLevel (some (k, b)) = ((characterLevels o)[b]?).getD true := by
  have h' : s.link.txFrame = some f := h
  simp [State.transmitLevel, HostLink.txOctet, h', ho, idleLevel]

/-- Once a frame has been cut off, the transmit line carries its character in progress and no other (R168). -/
theorem transmitLevel_of_finishing (s : State) (h : s.link.tx = .idle) (k j b : Nat) (o : Octet)
    (hf : s.link.finishing = some (k, o)) :
    s.transmitLevel (some (j, b)) = if j = k then ((characterLevels o)[b]?).getD true else true := by
  have ht : s.link.txFrame = none := by simp [HostLink.txFrame, h]
  by_cases hj : j = k
  · simp [State.transmitLevel, HostLink.txOctet, ht, hf, hj, idleLevel]
  · simp [State.transmitLevel, HostLink.txOctet, ht, hf, hj, Ne.symm hj, idleLevel]

/-- A four-octet field, octet by octet. -/
theorem o32_eq (n : Nat) : o32 n = [BitVec.ofNat 8 (n / 16777216), BitVec.ofNat 8 (n / 65536), BitVec.ofNat 8 (n /
    256), BitVec.ofNat 8 n] := by
  have h1 : n / 65536 / 256 = n / 16777216 := by omega
  have h2 : BitVec.ofNat 8 (n % 65536 / 256) = BitVec.ofNat 8 (n / 256) := by
    apply BitVec.eq_of_toNat_eq; simp only [BitVec.toNat_ofNat]; omega
  have h3 : BitVec.ofNat 8 (n % 65536) = BitVec.ofNat 8 n := by
    apply BitVec.eq_of_toNat_eq; simp only [BitVec.toNat_ofNat]; omega
  simp [o32, o16, h1, h2, h3]

/-- One octet each. -/
theorem flatMap_o8 (l : List Nat) : l.flatMap o8 = l.map (BitVec.ofNat 8) := by
  induction l with
  | nil => rfl
  | cons x l ih => simp [List.flatMap_cons, o8, ih]

/-- A list of slots: its length, then its members. -/
theorem oSlots_eq (l : List Nat) : oSlots l = BitVec.ofNat 8 l.length :: l.map (BitVec.ofNat 8) := by
  unfold oSlots oList; rw [flatMap_o8]; rfl

/-- An octet that may be absent (R189). -/
theorem o8?_of_octet (x : Option Octet) : o8? (x.map (·.toNat)) = [x.getD 0xFF#8] := by
  cases x <;> simp [o8?, o8]

/-- A one-octet field that may be absent (R189). -/
theorem o8?_eq (x : Option Nat) : o8? x = [(x.map (BitVec.ofNat 8)).getD 0xFF#8] := by
  cases x <;> rfl

/-- A list of one-octet items. -/
theorem flatMap_of_singletons {α β} (f : α → List β) (g : α → β) (h : ∀ x, f x = [g x]) (l : List α) : l.flatMap f =
    l.map g := by
  induction l with
  | nil => rfl
  | cons x l ih => simp [List.flatMap_cons, h, ih]

/-- The line group of STATS, octet by octet (11.5). -/
theorem statsLine_octets (s : State) : s.statsLine =
    [match s.line.state with | .stopped => 0#8 | .starting => 1#8 | .running => 2#8 | .faulted => 3#8,
      match s.line.faultReason with
        | none => 0xFF#8 | some .request => 0#8 | some .readback => 1#8 | some .runningReached => 2#8,
      BitVec.ofNat 8 s.line.startCount]
    ++ [BitVec.ofNat 8 (s.line.cycleCounter.toNat / 256), BitVec.ofNat 8 s.line.cycleCounter.toNat]
    ++ [BitVec.ofNat 8 (s.line.cycleTotal.toNat / 16777216), BitVec.ofNat 8 (s.line.cycleTotal.toNat / 65536),
      BitVec.ofNat 8 (s.line.cycleTotal.toNat / 256), BitVec.ofNat 8 s.line.cycleTotal.toNat]
    ++ [BitVec.ofNat 8 s.line.mismatchCount, BitVec.ofNat 8 s.line.quietCount, if s.line.quietReported then 0x01#8
      else 0x00#8, BitVec.ofNat 8 s.line.settings.missLimit,
        BitVec.ofNat 8 s.line.settings.windowLimit, BitVec.ofNat 8 s.line.settings.probeInterval, BitVec.ofNat 8
          s.line.settings.quietLimit,
        BitVec.ofNat 8 s.line.settings.receiveReserve] := by
  unfold State.statsLine; simp only [o32_eq]
  cases s.line.state <;> rcases s.line.faultReason with _ | _ | _ | _ <;> rfl

/-- The pool group of STATS, octet by octet (11.5). -/
theorem statsPool_octets (s : State) : s.statsPool =
    o16 s.free ++ o16 (s.lanes.map fun x => (x.queue.map fun p => max 1 ((p.declared + 31) / 32)).sum).sum
      ++ s.lanes.flatMap (fun x => o16 (x.queue.map fun p => max 1 ((p.declared + 31) / 32)).sum)
      ++ o16 (s.mailboxes.map fun m => (m.records.map fun r => max 1 ((r.length + 31) / 32)).sum).sum
      ++ s.mailboxes.map (fun m => BitVec.ofNat 8 (m.records.map fun r => max 1 ((r.length + 31) / 32)).sum)
      ++ [if s.rx.state = .body ∨ s.rx.state = .check then BitVec.ofNat 8 (max 1 ((s.rx.record.length.getD 0 + 31) /
        32)) else 0x00#8] := by
  have h1 : o8 s.rx.held = [if s.rx.state = .body ∨ s.rx.state = .check then BitVec.ofNat 8 (max 1 ((s.rx.record.length.getD 0 + 31) / 32)) else 0x00#8] := by
    unfold Receiver.held; cases s.rx.state <;> rfl
  have h2 : s.mailboxes.flatMap (fun m => o8 m.held) = s.mailboxes.map (fun m => BitVec.ofNat 8 (m.records.map fun r => max 1 ((r.length + 31) / 32)).sum) :=
    flatMap_of_singletons _ _ (fun _ => rfl) _
  unfold State.statsPool; rw [h1, h2]; rfl

/-- The window group of STATS, octet by octet (11.5). -/
theorem statsWindow_octets (s : State) : s.statsWindow =
    o16 s.window.bidCollisions ++ o16 s.window.ignoredBids
      ++ (match s.window.window with
        | none => [0x00#8, 0xFF#8, 0xFF#8, 0x00#8, 0x00#8, 0x00#8, 0x00#8]
        | some w => [0x01#8, BitVec.ofNat 8 w.owner, BitVec.ofNat 8 w.lane] ++ (BitVec.ofNat 8 w.upSet.length ::
          w.upSet.map (BitVec.ofNat 8))
          ++ [BitVec.ofNat 8 w.cyclesUsed, if w.packetStarted then 0x01#8 else 0x00#8, BitVec.ofNat 8 w.idleRun])
      ++ (BitVec.ofNat 8 s.window.queue.length :: s.window.queue.map (BitVec.ofNat 8)) := by
  unfold State.statsWindow; dsimp only
  rw [show oList o8 s.window.queue = oSlots s.window.queue from rfl]
  cases s.window.window with
  | none => simp only [oSlots_eq]; rfl
  | some w => simp only [oSlots_eq]; simp [o8, oFlag]

/-- The receiver group of STATS, octet by octet (11.5; log entry 20). -/
theorem statsReceiver_octets (s : State) : s.statsReceiver =
    [s.rx.stored, s.rx.badCheck, s.rx.foreign, s.rx.long, s.rx.unclaimed, s.rx.cutShort].flatMap o16
      ++ [match s.rx.state with | .idle => 0#8 | .header => 1#8 | .body => 2#8 | .check => 3#8 | .drain => 4#8,
        s.rx.record.port.getD 0xFF#8, s.rx.record.station.getD 0xFF#8]
      ++ (match s.rx.record.length with | none => [0xFF#8, 0xFF#8] | some n => o16 n)
      ++ (if s.rx.state = .idle then [0xFF#8, 0xFF#8] else o16 s.rx.record.taken)
      ++ [(s.rx.record.mailbox.map (BitVec.ofNat 8)).getD 0xFF#8,
        match s.rx.record.matchKind with
          | none => 0xFF#8 | some .a => 0#8 | some .b => 1#8 | some .masked => 2#8 | some .general => 3#8
          | some .all => 4#8]
      ++ s.mailboxes.flatMap fun m => BitVec.ofNat 8 m.records.length :: o16 m.dropped := by
  unfold State.statsReceiver; dsimp only
  have h1 : o16? s.rx.record.length = (match s.rx.record.length with | none => [0xFF#8, 0xFF#8] | some n => o16 n) := by
    cases s.rx.record.length <;> rfl
  have h2 : o16? (if s.rx.state = .idle then none else some s.rx.record.taken) = if s.rx.state = .idle then [0xFF#8, 0xFF#8] else o16 s.rx.record.taken := by
    split <;> rfl
  have h3 : o8? (s.rx.record.matchKind.map (·.code)) = [match s.rx.record.matchKind with
          | none => 0xFF#8 | some .a => 0#8 | some .b => 1#8 | some .masked => 2#8 | some .general => 3#8
          | some .all => 4#8] := by
    rcases s.rx.record.matchKind with _ | _ | _ | _ | _ | _ <;> rfl
  have h4 : o8 s.rx.state.code = [match s.rx.state with | .idle => 0#8 | .header => 1#8 | .body => 2#8 | .check => 3#8 | .drain => 4#8] := by
    cases s.rx.state <;> rfl
  rw [h1, h2, h3, h4, o8?_of_octet, o8?_of_octet, o8?_eq]
  simp only [List.flatMap_cons, List.flatMap_nil, List.append_assoc, List.cons_append, List.nil_append, List.append_nil, o8]

/-- The fields of LANE.READ, octet by octet (11.5). -/
theorem laneFields_octets (s : State) (l : Nat) : s.laneFields l =
    [match (s.lane l).engine with | .idle => 0#8 | .sending => 1#8 | .aborting => 2#8 | .gap => 3#8]
      ++ (BitVec.ofNat 8 (s.lane l).activeSet.length :: (s.lane l).activeSet.map (BitVec.ofNat 8))
      ++ [BitVec.ofNat 8 (s.lane l).gapCount, if (s.lane l).cutThrough then 0x01#8 else 0x00#8, BitVec.ofNat 8 (s.lane
        l).prec]
      ++ (BitVec.ofNat 8 (s.held (.lane l) .down).length :: (s.held (.lane l) .down).map (BitVec.ofNat 8))
      ++ (BitVec.ofNat 8 (s.held (.lane l) .up).length :: (s.held (.lane l) .up).map (BitVec.ofNat 8))
      ++ o16 ((s.lane l).queue.map fun p => max 1 ((p.declared + 31) / 32)).sum
      ++ (BitVec.ofNat 8 (s.lane l).queue.length :: (s.lane l).queue.flatMap fun p =>
        o16 p.handle ++ [BitVec.ofNat 8 p.destination, p.port] ++ o16 p.declared ++ o16 p.body.length ++ o16
          p.position
          ++ [match p.state with | .filling => 0#8 | .ready => 1#8 | .sending => 2#8 | .aborting => 3#8,
            match p.abortReason with
              | none => 0xFF#8 | some .cancel => 0#8 | some .laneReset => 1#8 | some .underrun => 2#8
              | some .slotsLost => 3#8 | some .lineStopped => 4#8]) := by
  have h1 : o8 (s.lane l).engine.code = [match (s.lane l).engine with | .idle => 0#8 | .sending => 1#8 | .aborting => 2#8 | .gap => 3#8] := by
    cases (s.lane l).engine <;> rfl
  have h2 : (Packet.fields : Packet → List Octet) = fun p =>
        o16 p.handle ++ [BitVec.ofNat 8 p.destination, p.port] ++ o16 p.declared ++ o16 p.body.length ++ o16 p.position
          ++ [match p.state with | .filling => 0#8 | .ready => 1#8 | .sending => 2#8 | .aborting => 3#8,
            match p.abortReason with
              | none => 0xFF#8 | some .cancel => 0#8 | some .laneReset => 1#8 | some .underrun => 2#8
              | some .slotsLost => 3#8 | some .lineStopped => 4#8] := by
    funext p
    unfold Packet.fields
    have a : o8 p.state.code = [match p.state with | .filling => 0#8 | .ready => 1#8 | .sending => 2#8 | .aborting => 3#8] := by
      cases p.state <;> rfl
    have b : o8? (p.abortReason.map (·.code)) = [match p.abortReason with
              | none => 0xFF#8 | some .cancel => 0#8 | some .laneReset => 1#8 | some .underrun => 2#8
              | some .slotsLost => 3#8 | some .lineStopped => 4#8] := by
      rcases p.abortReason with _ | _ | _ | _ | _ | _ <;> rfl
    rw [a, b]; simp [o8]
  unfold State.laneFields; dsimp only
  rw [h1, oSlots_eq, oSlots_eq, oSlots_eq]
  unfold oList; rw [h2]
  simp only [o8, oFlag, List.append_assoc, List.cons_append, List.nil_append]; rfl

end Sys2Proof.Machine
end

