-- ==== Sys2Proof/Laws/Effects.lean ====
section
/-! SUPPORT. One lemma for each effect that several commands share: circuits that change, notes that finish, stations that leave, the line that goes down. -/

namespace Sys2Proof.Machine

/-- One circuit of State.changeCircuits. -/
def changeCircuitAt (p : Circuit → Bool) (new : CircuitState) (reason : CircuitReason) (s : State) (n : Nat) : State
    :=
  match s.circuit n with
  | some c => if p c then s.changeCircuit n c new reason none else s
  | none => s

/-- The circuits below k changed, with their reports in order, the table's size kept. -/
theorem foldl_changeCircuitAt_length (p : Circuit → Bool) (new : CircuitState) (reason : CircuitReason) (s : State) (k
    : Nat) (hk : k ≤ s.circuits.length) :
    let t : State := (List.range k).foldl (changeCircuitAt p new reason) s
    (∀ n, t.circuit n = if n < k then (s.circuit n).map fun c => if p c then { c.silence with state := new } else c
      else s.circuit n)
    ∧ t.circuits.length = s.circuits.length
    ∧ t.line = s.line
    ∧ t.rep = ((List.range k).filterMap fun n => (s.circuit n).bind fun c => if p c then some (Report.circuitState n
      c.source new c.state reason none s.now) else none).foldl ReportUnit.handOver s.rep := by
  induction k with
  | zero => intro t; exact ⟨fun n => by simp [t], rfl, rfl, rfl⟩
  | succ k ih =>
    intro t
    obtain ⟨h1, h2, h3, h4⟩ := ih (by omega)
    set t' := (List.range k).foldl (changeCircuitAt p new reason) s with ht'
    have ht : t = (match t'.circuit k with
        | some c => if p c then t'.changeCircuit k c new reason none else t'
        | none => t') := by
      simp only [t, List.range_succ, List.foldl_append, List.foldl_cons, List.foldl_nil, ← ht']; rfl
    have hk' : t'.circuit k = s.circuit k := by rw [h1]; simp
    rw [hk'] at ht
    have hrep : ((List.range (k+1)).filterMap fun n => (s.circuit n).bind fun c => if p c then some (Report.circuitState n c.source new c.state reason none s.now) else none).foldl ReportUnit.handOver s.rep
       = (match (s.circuit k).bind fun c => if p c then some (Report.circuitState k c.source new c.state reason none s.now) else none with
          | some r => t'.rep.handOver r | none => t'.rep) := by
      rw [h4, List.range_succ, List.filterMap_append, List.foldl_append]
      simp only [List.filterMap_cons, List.filterMap_nil]
      cases (s.circuit k).bind fun c => if p c then some (Report.circuitState k c.source new c.state reason none s.now) else none <;> rfl
    cases hc : s.circuit k with
    | none =>
      rw [hc] at ht; simp only at ht
      rw [ht]
      refine ⟨fun n => ?_, h2, h3, ?_⟩
      · rw [h1]
        by_cases hn : n < k
        · rw [if_pos hn, if_pos (by omega)]
        · by_cases hnk : n = k
          · subst hnk; simp [hc]
          · rw [if_neg hn, if_neg (by omega)]
      · rw [hrep, hc]; rfl
    | some c =>
      rw [hc] at ht; simp only at ht
      by_cases hp : p c
      · rw [if_pos hp] at ht
        rw [ht]
        refine ⟨fun n => ?_, ?_, ?_, ?_⟩
        · by_cases hnk : n = k
          · subst hnk
            rw [if_pos (by omega), hc]
            have : (t'.changeCircuit n c new reason none).circuit n = some { c.silence with state := new } := by
              have := State.circuit_setCircuit_self t' n (some { c.silence with state := new }) (by omega)
              exact this
            rw [this]; simp [hp]
          · have : (t'.changeCircuit k c new reason none).circuit n = t'.circuit n := State.circuit_setCircuit_ne t' k n _ hnk
            rw [this, h1]
            by_cases hn : n < k
            · rw [if_pos hn, if_pos (by omega)]
            · rw [if_neg hn, if_neg (by omega)]
        · simp [State.changeCircuit, State.report, State.setCircuit, h2]
        · simpa using h3
        · rw [hrep, hc]
          simp only [Option.bind_some, hp, if_true]
          simp [State.changeCircuit, State.report, State.setCircuit, State.now, h3]
      · rw [if_neg hp] at ht
        rw [ht]
        refine ⟨fun n => ?_, h2, h3, ?_⟩
        · rw [h1]
          by_cases hn : n < k
          · rw [if_pos hn, if_pos (by omega)]
          · by_cases hnk : n = k
            · subst hnk; simp [hc, hp]
            · rw [if_neg hn, if_neg (by omega)]
        · rw [hrep, hc]; simp [hp]

/-- What State.changeCircuits does (R83): the chosen circuits change state with empty stores, ascending. -/
theorem changeCircuits_spec (p : Circuit → Bool) (new : CircuitState) (reason : CircuitReason) (s : State) (hk :
    s.circuits.length = 12) :
    (∀ n, (s.changeCircuits p new reason).circuit n = (s.circuit n).map fun c => if p c then
      { c.silence with state := new } else c)
    ∧ (s.changeCircuits p new reason).circuits.length = 12
    ∧ (s.changeCircuits p new reason).rep = ((List.range 12).filterMap fun n => (s.circuit n).bind fun c => if p c
      then some (Report.circuitState n c.source new c.state reason none s.now) else none).foldl ReportUnit.handOver
      s.rep := by
  obtain ⟨h1, h2, h3, h4⟩ := foldl_changeCircuitAt_length p new reason s 12 (by omega)
  refine ⟨fun n => ?_, by rw [← hk]; exact h2, h4⟩
  refine (h1 n).trans ?_
  split
  · rfl
  · next hn =>
    have : s.circuit n = none := by simp [State.circuit]; rw [List.getElem?_eq_none (by omega)]; rfl
    rw [this]; rfl

/-- Silencing a circuit empties it. -/
theorem silence_eq_emptied (c : Circuit) : c.silence = c.emptied := rfl

/-- The entry of b after the entry of a has been changed. -/
theorem station_modStation (s : State) (a b : Nat) (f : Station → Station) (h : s.poll.stations.length = 30) :
    (s.modStation a f).station b = if b = a ∧ 1 ≤ a ∧ a ≤ 30 then f (s.station b) else s.station b := by
  by_cases hb : b = a
  · subst hb
    by_cases hr : 1 ≤ b ∧ b ≤ 30
    · rw [if_pos ⟨rfl, hr⟩, State.station_modStation_self s b f hr.1 (by omega)]
    · rw [if_neg (by tauto)]
      cases b with
      | zero => rfl
      | succ n =>
        have : ¬ n < s.poll.stations.length := by omega
        simp only [State.station, State.modStation]
        rw [List.modify_eq_self (by omega)]
  · rw [if_neg (by tauto), State.station_modStation_ne s a b f hb]

/-- Changing an entry keeps the table's size. -/
theorem stations_length_modStation (s : State) (a : Nat) (f : Station → Station) : (s.modStation a
    f).poll.stations.length = s.poll.stations.length := by
  cases a <;> simp [State.modStation]

/-- The entries depend on the poll unit alone. -/
theorem station_of_poll {s t : State} (h : s.poll = t.poll) (b : Nat) : s.station b = t.station b := by
  unfold State.station; rw [h]

/-- What finishing a note other than DELIVERED does to the store and the stations (R57, R58). -/
theorem finishNote_spec (s : State) (n : Note) (o : NoteOutcome) (ho : o ≠ .delivered) (hl : s.poll.stations.length =
    30) :
    (s.finishNote n o).notes.store = s.notes.store.filter (fun m => decide (m.handle ≠ n.handle))
    ∧ (s.finishNote n o).poll.stations.length = 30
    ∧ ∀ b, (s.finishNote n o).station b = if (1 ≤ b ∧ b ≤ 30) then
      { s.station b with abortPending := (s.station b).abortPending || decide (n.station = b ∧ n.state = .inFlight) }
      else s.station b := by
  have hf : ∀ s' : State, (s'.finishNote n o).poll = (if n.state = .inFlight then (s'.modStation n.station fun t => { t with abortPending := true }).poll else s'.poll) := by
    intro s'; simp only [State.finishNote, ho, ne_eq, not_false_eq_true, and_true]; split <;> rfl
  refine ⟨?_, ?_, fun b => ?_⟩
  · simp only [State.finishNote, State.complete_notes]
    split <;> simp <;> congr 1
  · rw [hf]; split
    · rw [stations_length_modStation, hl]
    · exact hl
  · have : (s.finishNote n o).station b = if n.state = .inFlight then (s.modStation n.station fun t => { t with abortPending := true }).station b else s.station b := by
      split
      · next hi => exact station_of_poll (by rw [hf, if_pos hi]) b
      · next hi => exact station_of_poll (by rw [hf, if_neg hi]) b
    rw [this, station_modStation _ _ _ _ hl]
    by_cases hi : n.state = .inFlight
    · simp only [hi, if_true, and_true]
      by_cases hb : 1 ≤ b ∧ b ≤ 30
      · rw [if_pos hb]
        by_cases hs : n.station = b
        · subst hs; rw [if_pos ⟨rfl, hb⟩]; simp
        · rw [if_neg (by tauto)]; simp [hs]
      · rw [if_neg hb, if_neg (by rintro ⟨rfl, h⟩; exact hb h)]
    · simp [hi]

/-- What finishing several notes does to the store and the stations (R57, R58). -/
theorem finishNotes_spec (ns : List Note) (s : State) (o : NoteOutcome) (ho : o ≠ .delivered) (hl :
    s.poll.stations.length = 30) :
    (s.finishNotes ns o).notes.store = s.notes.store.filter (fun m => decide (m.handle ∉ ns.map (·.handle)))
    ∧ (s.finishNotes ns o).poll.stations.length = 30
    ∧ ∀ b, (s.finishNotes ns o).station b = if (1 ≤ b ∧ b ≤ 30) then
      { s.station b with abortPending := (s.station b).abortPending || ns.any fun n => decide (n.station = b ∧ n.state = .inFlight) }
      else s.station b := by
  induction ns generalizing s with
  | nil => simp [State.finishNotes, hl]
  | cons n ns ih =>
    obtain ⟨a1, a2, a3⟩ := finishNote_spec s n o ho hl
    obtain ⟨b1, b2, b3⟩ := ih (s.finishNote n o) a2
    have e : s.finishNotes (n :: ns) o = (s.finishNote n o).finishNotes ns o := rfl
    rw [e]
    refine ⟨?_, b2, fun b => ?_⟩
    · rw [b1, a1, List.filter_filter]; congr 1; funext m
      simp only [List.map_cons, List.mem_cons]
      by_cases h : m.handle = n.handle <;> simp [h]
    · rw [b3, a3]
      split
      · simp [Bool.or_assoc]
      · rfl

/-- What losing a station's notes does (R61). -/
theorem loseNotes_spec (s : State) (a : Nat) (hl : s.poll.stations.length = 30) (hn : (s.notes.store.map
    (·.handle)).Nodup) :
    (s.loseNotes a).notes = { s.notes with store := s.notes.store.filter fun n => decide (n.station ≠ a) }
    ∧ (s.loseNotes a).poll.stations.length = 30
    ∧ ∀ b, (s.loseNotes a).station b = if b = a ∧ 1 ≤ b ∧ b ≤ 30 then
      { s.station b with abortPending := (s.station b).abortPending || s.inFlightFor a } else s.station b := by
  obtain ⟨h1, h2, h3⟩ := finishNotes_spec (s.notesOf a) s .stationLost (by simp) hl
  refine ⟨?_, h2, fun b => ?_⟩
  · have hs : (s.loseNotes a).notes.store = s.notes.store.filter fun n => decide (n.station ≠ a) := by
      refine h1.trans ?_
      apply List.filter_congr
      intro m hm
      have : m.handle ∈ (s.notesOf a).map (·.handle) ↔ m.station = a := by
        constructor
        · intro h
          obtain ⟨x, hx, hxm⟩ := List.mem_map.mp h
          have hx2 := List.mem_filter.mp hx
          have := List.inj_on_of_nodup_map hn hx2.1 hm hxm
          subst this; simpa using hx2.2
        · intro h; exact List.mem_map_of_mem (List.mem_filter.mpr ⟨hm, by simpa using h⟩)
      simp [this]
    have hf := State.loseNotes_frame s a
    cases hx : (s.loseNotes a).notes with
    | mk st co lh =>
      rw [hx] at hs hf
      simp only at hs hf
      rw [hs]; 
      obtain ⟨hco, hlh⟩ : co = s.notes.callOut ∧ lh = s.notes.lastHandle := ⟨hf.2.2.2.2.2.2.2.2.2.2.2.2.2.2.2.2.1, hf.2.2.2.2.2.2.2.2.2.2.2.2.2.2.2.2.2.1⟩
      rw [hco, hlh]
  · refine (h3 b).trans ?_
    by_cases hb : 1 ≤ b ∧ b ≤ 30
    · rw [if_pos hb]
      by_cases hba : b = a
      · subst hba; rw [if_pos ⟨rfl, hb⟩]
        have : (s.notesOf b).any (fun n => decide (n.station = b ∧ n.state = .inFlight)) = s.inFlightFor b := by
          simp only [State.notesOf, State.inFlightFor, List.any_filter]
          congr 1; funext n
          by_cases h1 : n.station = b <;> simp [h1]
        rw [this]
      · rw [if_neg (by tauto)]
        have : (s.notesOf a).any (fun n => decide (n.station = b ∧ n.state = .inFlight)) = false := by
          rw [List.any_eq_false]; intro n hn
          have := (List.mem_filter.mp hn).2
          simp at this; simp; intro h; omega
        rw [this]; simp
    · rw [if_neg hb, if_neg (by tauto)]

/-- What the window unit does at a departure (R95, R102, R150). -/
theorem leaveWindow_spec (s : State) (a : Nat) :
    (s.leaveWindow a).window.queue = s.window.queue.filter (fun b => decide (b ≠ a))
    ∧ (∀ w, s.window.window = some w → w.owner = a → (s.leaveWindow a).window.window = none ∧ (s.leaveWindow a).rx =
      s.rx.discarded ∧ (s.leaveWindow a).free = s.free + s.rx.held)
    ∧ ((∀ w, s.window.window = some w → w.owner ≠ a) → (s.leaveWindow a).window.window = s.window.window ∧
      (s.leaveWindow a).rx = s.rx ∧ (s.leaveWindow a).free = s.free) := by
  have hq : (s.window.queue.filter fun x => x != a) = s.window.queue.filter (fun b => decide (b ≠ a)) := by
    congr 1; funext x; simp [bne, Bool.beq_eq_decide_eq]
  have hdis : ∀ t : State, t.discardPacket.rx = t.rx.discarded ∧ t.discardPacket.free = t.free + t.rx.held := by
    intro t; unfold State.discardPacket Receiver.discarded
    split
    · next h => exact ⟨rfl, by simp [Receiver.held, h]⟩
    · exact ⟨by simp [sat16, satAdd], rfl⟩
  unfold State.leaveWindow
  dsimp only
  cases hw : s.window.window with
  | none =>
    refine ⟨hq, fun w h => (by cases h), fun _ => ⟨rfl, rfl, rfl⟩⟩
  | some w =>
    dsimp only
    by_cases ho : w.owner = a
    · rw [if_pos ho]
      have : ∀ t : State, t.window.window = some w → (t.endWindow .lost).window = { t.window with window := none } ∧ (t.endWindow .lost).rx = t.rx.discarded ∧ (t.endWindow .lost).free = t.free + t.rx.held := by
        intro t ht; unfold State.endWindow; rw [ht]; simp only [WindowEnd.fault, WindowEnd.byReceiver, Bool.false_eq_true, if_false]
        exact ⟨by simp, hdis t⟩
      obtain ⟨c1, c2, c3⟩ := this { s with window := { s.window with window := some w, queue := s.window.queue.filter fun x => x != a } } rfl
      refine ⟨by rw [c1]; exact hq, fun w' h _ => ⟨by rw [c1], c2, c3⟩, fun h => absurd ho (h w rfl)⟩
    · rw [if_neg ho]
      refine ⟨hq, fun w' h h2 => ?_, fun _ => ⟨rfl, rfl, rfl⟩⟩
      cases h; exact absurd h2 ho

/-- Whether a note is IN_FLIGHT depends on the note unit alone. -/
theorem inFlightFor_congr {s t : State} (h : s.notes = t.notes) (a) : s.inFlightFor a = t.inFlightFor a := by
  unfold State.inFlightFor; rw [h]

/-- Poll units that agree but for the Station Table. -/
theorem PollUnit.eq_with_stations {p q : PollUnit} (h1 : p.pollPointer = q.pollPointer) (h2 : p.probePointer =
    q.probePointer) (h3 : p.call = q.call) : p = { q with stations := p.stations } := by
  cases p; cases q; simp_all

/-- What leaving ONLINE does (R34). -/
theorem leaveOnline_spec (s : State) (a : Nat) (new : StationState) (reason : StationReason) (hs : Shape s) (hn :
    (s.notes.store.map (·.handle)).Nodup) :
    Departure s (s.leaveOnline a new reason) a
    ∧ (s.leaveOnline a new reason).station a = (if 1 ≤ a ∧ a ≤ 30 then
      { s.station a with abortPending := (s.station a).abortPending || s.inFlightFor a } else s.station a)
    ∧ (s.leaveOnline a new reason).poll.stations.length = 30 := by
  have hpoll := PollUnit.eq_with_stations (p := (s.leaveOnline a new reason).poll) (q := s.poll) (by simp) (by simp) (by simp)
  have f1 := State.leaveOnline_frame s a new reason
  have e : s.leaveOnline a new reason = (((s.reportStation a new .online reason).leaveWindow a).loseNotes a).sourceLeft a := rfl
  obtain ⟨w1, w2, w3⟩ := leaveWindow_spec (s.reportStation a new .online reason) a
  have hp2 : ((s.reportStation a new .online reason).leaveWindow a).poll = s.poll := by simp
  have hn2 : ((s.reportStation a new .online reason).leaveWindow a).notes = s.notes := by simp
  have hc2 : ((s.reportStation a new .online reason).leaveWindow a).circuits = s.circuits := by simp
  have hb2 : ((s.reportStation a new .online reason).leaveWindow a).window.bidCollisions = s.window.bidCollisions := by simp
  have hi2 : ((s.reportStation a new .online reason).leaveWindow a).window.ignoredBids = s.window.ignoredBids := by simp
  have r1 : (s.reportStation a new .online reason).window = s.window := by simp
  have r2 : (s.reportStation a new .online reason).rx = s.rx := by simp
  have r3 : (s.reportStation a new .online reason).free = s.free := by simp
  rw [r1] at w1; rw [r1, r2, r3] at w2 w3
  generalize ((s.reportStation a new .online reason).leaveWindow a) = t2 at *
  obtain ⟨l1, l2, l3⟩ := loseNotes_spec t2 a (by rw [hp2]; exact hs.stations) (by rw [hn2]; exact hn)
  have hc3 : (t2.loseNotes a).circuits = s.circuits := by simp [hc2]
  have hw3 : (t2.loseNotes a).window = t2.window := by simp
  have hr3 : (t2.loseNotes a).rx = t2.rx := by simp
  have hf3 : (t2.loseNotes a).free = t2.free := by simp
  generalize (t2.loseNotes a) = t3 at *
  obtain ⟨c1, c2, c3⟩ := changeCircuits_spec (fun c => decide (c.source = a ∧ c.state = .live)) .muted .sourceLeft t3 (by rw [hc3]; exact hs.circuits)
  have hst : ∀ b, (t3.sourceLeft a).station b = t3.station b := fun b => station_of_poll (by simp) b
  have hst2 : ∀ b, t2.station b = s.station b := fun b => station_of_poll hp2 b
  have hcirc : ∀ n, t3.circuit n = s.circuit n := fun n => by unfold State.circuit; rw [hc3]
  have g1 : (t3.sourceLeft a).notes = t3.notes := by simp
  have g2 : (t3.sourceLeft a).window = t3.window := by simp
  have g3 : (t3.sourceLeft a).rx = t3.rx := by simp
  have g4 : (t3.sourceLeft a).free = t3.free := by simp
  have g5 : (t3.sourceLeft a).poll.stations = t3.poll.stations := by simp
  have g6 : ∀ n, (t3.sourceLeft a).circuit n = (t3.changeCircuits (fun c => decide (c.source = a ∧ c.state = .live)) .muted .sourceLeft).circuit n := fun n => rfl
  rw [← e] at hst g1 g2 g3 g4 g5 g6
  clear e
  generalize s.leaveOnline a new reason = t4 at *
  refine ⟨⟨fun b hb => ?_, hpoll, ?_, ?_, ?_, ?_, ?_, ?_, ?_, ?_, ?_, ?_⟩, ?_, ?_⟩
  · rw [hst, l3, if_neg (fun h => hb h.1), hst2]
  · rw [g1, l1, hn2]
  · rw [g2, hw3, w1]
  · rw [g2, hw3]; exact ⟨hb2, hi2⟩
  · intro w hw ho; rw [g2, g3, g4, hw3, hr3, hf3]; exact w2 w hw ho
  · intro h; rw [g2, g3, g4, hw3, hr3, hf3]; exact w3 h
  · intro n hn; rw [g6, c1 n, hcirc]; simp only [decide_eq_true_eq, silence_eq_emptied]
  · simp [f1]
  · simp [f1]
  · simp [f1]
  · simp [f1]
  · rw [hst, l3]; simp only [hst2]
    rw [inFlightFor_congr hn2]
    by_cases hb : 1 ≤ a ∧ a ≤ 30
    · simp [hb]
    · simp [hb]
  · rw [g5]; exact l2

/-- What a finished note hands over (R58). -/
theorem finishNote_rep (s : State) (n : Note) (o : NoteOutcome) :
    (s.finishNote n o).rep = s.rep.placed s.line.cycleCounter (n.completion o s.line.cycleCounter) := by
  unfold State.finishNote; dsimp only; split <;> simp [State.complete, ReportUnit.placed, Note.completion, State.now]

/-- What several finished notes hand over, in order (R58). -/
theorem finishNotes_rep (ns : List Note) (s : State) (o : NoteOutcome) :
    (s.finishNotes ns o).rep = (ns.map fun n => n.completion o s.line.cycleCounter).foldl (ReportUnit.placed
      s.line.cycleCounter) s.rep := by
  induction ns generalizing s with
  | nil => rfl
  | cons n ns ih =>
    show ((s.finishNote n o).finishNotes ns o).rep = _
    rw [ih, finishNote_rep, show (s.finishNote n o).line = s.line by simp]; rfl

/-- What a station's lost notes hand over (R61). -/
theorem loseNotes_rep (s : State) (a : Nat) : (s.loseNotes a).rep = s.lostNotesReports a s.rep := by
  unfold State.loseNotes State.lostNotesReports; rw [finishNotes_rep]; unfold State.notesOf
  simp [Bool.beq_eq_decide_eq]

/-- The window unit hands nothing over at a departure (R102). -/
theorem leaveWindow_rep (s : State) (a : Nat) : (s.leaveWindow a).rep = s.rep := by
  have hd : ∀ t : State, t.discardPacket.rep = t.rep := by intro t; unfold State.discardPacket; split <;> rfl
  have he : ∀ t : State, (t.endWindow .lost).rep = t.rep := by
    intro t; unfold State.endWindow
    cases h : t.window.window with
    | none => rfl
    | some w => simp only [WindowEnd.fault, WindowEnd.byReceiver, Bool.false_eq_true, if_false, hd]
  unfold State.leaveWindow; dsimp only
  split
  · split
    · rw [he]
    · rfl
  · rfl

/-- What a departure hands over, in the order of R34. -/
theorem leaveOnline_rep (s : State) (a : Nat) (new : StationState) (reason : StationReason) (hs : Shape s) :
    (s.leaveOnline a new reason).rep = s.departureReports a new reason := by
  have e : s.leaveOnline a new reason = (((s.reportStation a new .online reason).leaveWindow a).loseNotes a).sourceLeft a := rfl
  rw [e]
  have hn2 : ((s.reportStation a new .online reason).leaveWindow a).notes = s.notes := by simp
  have hl2 : ((s.reportStation a new .online reason).leaveWindow a).line = s.line := by simp
  have hc2 : ((s.reportStation a new .online reason).leaveWindow a).circuits = s.circuits := by simp
  have hr2 : ((s.reportStation a new .online reason).leaveWindow a).rep = s.rep.handOver (.stationState a new .online reason s.now) := by rw [leaveWindow_rep]; rfl
  generalize ((s.reportStation a new .online reason).leaveWindow a) = t at *
  have hc3 : (t.loseNotes a).circuits = s.circuits := by simp [hc2]
  have hl3 : (t.loseNotes a).line = s.line := by simp [hl2]
  have hr3 := loseNotes_rep t a
  generalize t.loseNotes a = u at *
  obtain ⟨-, -, c3⟩ := changeCircuits_spec (fun c => decide (c.source = a ∧ c.state = .live)) .muted .sourceLeft u (by rw [hc3]; exact hs.circuits)
  have hgoal : (u.sourceLeft a).rep = (u.changeCircuits (fun c => decide (c.source = a ∧ c.state = .live)) .muted .sourceLeft).rep := rfl
  rw [hgoal, c3, hr3]
  unfold State.departureReports State.lostNotesReports
  rw [hn2, hl2, hr2]
  simp only [State.now, hl3, State.circuit, hc3]
  generalize List.range 12 = L
  refine congrArg (fun l => List.foldl ReportUnit.handOver _ l) ?_
  apply List.filterMap_congr
  intro n _
  cases (s.circuits[n]?).join with
  | none => rfl
  | some c =>
    simp only [Option.bind_some, decide_eq_true_eq]
    split
    · next h => rw [h.1, h.2]
    · rfl

/-- Changing an entry keeps every table's size. -/
theorem Shape.modStation {s : State} (h : Shape s) (a f) : Shape (s.modStation a f) :=
  ⟨by rw [stations_length_modStation]; exact h.1, by simpa using h.2, by simpa using h.3, by simpa using h.4, by simpa
    using h.5, by simpa using h.6, by simpa using h.7⟩

/-- A departure after the station's own entry has been changed. -/
theorem Departure.of_modStation {s u : State} {a : Nat} {f} (h : Departure (s.modStation a f) u a) : Departure s u a
    := by
  obtain ⟨h1,h2,h3,h4,h5,h6,h7,h8,h9,h10,h11,h12⟩ := h
  refine ⟨fun b hb => ?_, ?_, by simpa using h3, by simpa using h4, by simpa using h5, by simpa using h6, by simpa using h7, ?_, by simpa using h9, by simpa using h10, by simpa using h11, by simpa using h12⟩
  · rw [h1 b hb, State.station_modStation_ne _ _ _ _ hb]
  · rw [h2]; cases a <;> rfl
  · intro n hn; rw [h8 n hn]; unfold State.circuit; simp

/-- The entries do not depend on the line engine. -/
theorem station_with_line (s : State) (l : LineEngine) (a : Nat) : State.station { s with line := l } a = s.station a
    := station_of_poll rfl a

/-- A departure says nothing of the line engine. -/
theorem Departure.with_line {s u : State} {a : Nat} {l} (h : Departure s u a) : Departure s { u with line := l } a :=
  ⟨fun b hb => (station_of_poll rfl b).trans (h.1 b hb), h.2, h.3, h.4, h.5, h.6, h.7, h.8, h.9, h.10, h.11, h.12⟩

/-- A departure speaks of neither the line engine nor the report unit. -/
theorem Departure.with_line_rep {s u : State} {a : Nat} {l r} (h : Departure s u a) : Departure s
    { u with line := l, rep := r } a :=
  ⟨fun b hb => (station_of_poll rfl b).trans (h.1 b hb), h.2, h.3, h.4, h.5, h.6, h.7, h.8, h.9, h.10, h.11, h.12⟩

/-- A code of 31 is a miss, malformed unless the octet is FFh (R26, R27). -/
theorem missClass_of_31 {o : Octet} (h : o.toNat / 8 = 31) : missClass o = some (decide (o ≠ 0xFF#8)) := by
  unfold missClass classifyAnswer
  by_cases hm : o = idleOctet
  · rw [if_pos hm]; subst hm; rfl
  · rw [if_neg hm, if_pos h]; simp [show o ≠ 0xFF#8 from hm]

/-- Any other code is a valid answer, with its bits (R26). -/
theorem classifyAnswer_valid {o : Octet} (h : o.toNat / 8 ≠ 31) : classifyAnswer o = .valid (o.toNat/8) (o.getLsbD 2)
    (o.getLsbD 1) (o.getLsbD 0) := by
  unfold classifyAnswer; rw [if_neg, if_neg h]; rintro rfl; exact h (by decide)

/-- The answer of a RUNNING cycle is judged. -/
theorem exec_answerArrival_running {s : State} {o : Octet} (h1 : s.pin = .high) (h2 : s.line.cycleOpen = true) (h3 :
    s.line.state = .running) :
    exec (.answerArrival o) s = event (s.judgeAnswer o) := by
  simp [exec, execAnswerArrival, State.inRunningCycle, h1, h2, h3]

/-- The ring members (R23). -/
theorem inRing_iff (t : StationState) : t.inRing = true ↔ (t ≠ .free ∧ t ≠ .barred) := by cases t <;> simp [StationState.inRing]

/-- A ring-poll miss: the station's part, then the quiet count. -/
theorem judgeAnswer_miss {s : State} {o : Octet} {a : Nat} (hc : s.poll.call = .ring a) (ho : o.toNat / 8 = 31) (hr :
    (s.station a).state.inRing = true) :
    s.judgeAnswer o = (s.ringMiss a (decide (o ≠ 0xFF#8))).countQuiet := by
  unfold State.judgeAnswer; rw [hc]; simp only [State.ringAnswer]; rw [if_pos hr]
  unfold classifyAnswer
  by_cases hm : o = idleOctet
  · rw [if_pos hm]; subst hm; rfl
  · rw [if_neg hm, if_pos ho]; simp [show o ≠ 0xFF#8 from hm]

/-- A valid answer to a ring poll: the station's part, then the end of the quiet run. -/
theorem judgeAnswer_valid {s : State} {o : Octet} {a : Nat} (hc : s.poll.call = .ring a) (ho : o.toNat / 8 ≠ 31) (hr :
    (s.station a).state.inRing = true) :
    s.judgeAnswer o = (s.ringValid a (o.toNat/8) (o.getLsbD 2) (o.getLsbD 1) (o.getLsbD 0)).endQuiet := by
  unfold State.judgeAnswer; rw [hc]; simp only [State.ringAnswer]; rw [if_pos hr, classifyAnswer_valid ho]

/-- Below the quiet limit, or once reported, the quiet count only rises (R16, R17). -/
theorem countQuiet_below (s : State) (h : s.line.quietReported = true ∨ min 255 (s.line.quietCount + 1) <
    s.line.settings.quietLimit) :
    s.countQuiet = { s with line := { s.line with quietCount := min 255 (s.line.quietCount + 1) } } := by
  unfold State.countQuiet; dsimp only [satAdd]; rw [if_neg]
  rintro ⟨a, b⟩; rcases h with h | h
  · simp [h] at b
  · omega

/-- At the quiet limit LINE_QUIET is handed over (R17). -/
theorem countQuiet_reports (s : State) (h : s.line.quietReported = false) (h2 : s.line.settings.quietLimit ≤ min 255
    (s.line.quietCount + 1)) :
    s.countQuiet =
      { s with line := { s.line with quietCount := min 255 (s.line.quietCount + 1), quietReported := true }, rep := s.rep.handOver (.lineQuiet (min 255 (s.line.quietCount + 1)) s.line.settings.quietLimit) }
      := by
  unfold State.countQuiet; dsimp only [satAdd]; rw [if_pos ⟨h2, h⟩]; rfl

/-- R16, R17: one more miss on a ring poll, in one equation: the count, and LINE_QUIET when the limit is reached. -/
theorem countQuiet_eq (s : State) :
    s.countQuiet =
      (let count := min 255 (s.line.quietCount + 1)
       let quiet := !s.line.quietReported && decide (s.line.settings.quietLimit ≤ count)
       { s with
         line := { s.line with quietCount := count, quietReported := s.line.quietReported || quiet }
         rep := if quiet = true then s.rep.handOver (.lineQuiet count s.line.settings.quietLimit) else s.rep }) := by
  dsimp only
  cases h : s.line.quietReported
  · by_cases hl : s.line.settings.quietLimit ≤ min 255 (s.line.quietCount + 1)
    · rw [countQuiet_reports s h hl]; simp [hl]
    · rw [countQuiet_below s (.inr (Nat.lt_of_not_le hl))]; simp [hl, h]
  · rw [countQuiet_below s (.inl h)]; simp [h]

/-- A state keeps its own host link, pin, handles, sent reports, choices and queue. -/
theorem Apart.refl (s : State) : Apart s s := ⟨rfl, rfl, rfl, ⟨rfl, rfl, rfl⟩, rfl, rfl⟩

/-- What two pieces of work each keep, they keep one after the other. -/
theorem Apart.after {s t u : State} (h : Apart s t) (k : Apart t u) : Apart s u :=
  ⟨k.1.trans h.1, k.2.trans h.2, k.3.trans h.3, ⟨k.4.1.trans h.4.1, k.4.2.1.trans h.4.2.1, k.4.2.2.trans h.4.2.2⟩,
    k.5.trans h.5, k.6.trans h.6⟩

/-- A departure (R34) touches no host link, pin, handle, sent report, choice or queue. -/
theorem Apart.leaveOnline (s : State) (a new reason) : Apart s (s.leaveOnline a new reason) := by
  constructor <;> simp

/-- Counting a miss (R16) touches no host link, pin, handle, sent report, choice or queue. -/
theorem Apart.countQuiet (s : State) : Apart s s.countQuiet := by
  constructor <;> simp

/-- Changing a station entry touches nothing of the rest. -/
theorem Apart.modStation (s : State) (a f) : Apart s (s.modStation a f) := by
  constructor <;> simp

/-- Two changes that agree on the present entry. -/
theorem modStation_of_eq (s : State) (a : Nat) (f g : Station → Station) (h : f (s.station a) = g (s.station a)) :
    s.modStation a f = s.modStation a g := by
  cases a with
  | zero => rfl
  | succ n =>
    simp only [State.modStation]
    congr 2
    apply List.ext_getElem?
    intro i
    rw [List.getElem?_modify, List.getElem?_modify]
    split
    · next hi =>
      subst hi
      cases hx : s.poll.stations[n]? with
      | none => rfl
      | some x => simp [State.station, hx] at h; simp [h]
    · rfl

/-- What an ONLINE station's request for a window does (R92, R94). -/
theorem askWindow_spec (s : State) (a : Nat) (h : (s.station a).state = .online) :
    (s.askWindow a) =
      { s with window := { s.window with queue := if a ∉ s.window.queue ∧ (∀ w, s.window.window = some w → w.owner ≠ a) then s.window.queue ++ [a] else s.window.queue } }
      := by
  have ho : (s.window.window.any fun w => decide (w.owner = a)) = false ↔ ∀ w, s.window.window = some w → w.owner ≠ a := by
    cases s.window.window <;> simp
  unfold State.askWindow; dsimp only
  by_cases h1 : a ∉ s.window.queue ∧ (∀ w, s.window.window = some w → w.owner ≠ a)
  · rw [if_pos h1, if_pos ⟨by simp [State.isOnline, h], h1.1, ho.mpr h1.2⟩]
  · rw [if_neg h1, if_neg]; rintro ⟨-, x, y⟩; exact h1 ⟨x, ho.mp y⟩

/-- What the condition double-look does (R38). -/
theorem doubleLook_spec (s : State) (a code : Nat) (h1 : 1 ≤ a) (h2 : a ≤ 30) (hl : s.poll.stations.length = 30) :
    let t := s.station a
    (∀ b, b ≠ a → (s.doubleLook a code).station b = s.station b)
    ∧ (s.doubleLook a code).poll.stations.length = 30
    ∧ (s.doubleLook a code).station a =
      { t with candidate := some code, accepted := if t.candidate = some code then some code else t.accepted }
    ∧ (s.doubleLook a code).rep = if t.candidate = some code ∧ t.accepted ≠ some code then s.rep.handOver (.condition
      a code t.accepted 0 s.now) else s.rep := by
  intro t
  unfold State.doubleLook; dsimp only
  by_cases hc : (s.station a).candidate = some code
  · rw [if_pos hc]
    have hc' : t.candidate = some code := hc
    by_cases ha : (s.station a).accepted = some code
    · rw [if_pos ha]
      have ha' : t.accepted = some code := ha
      refine ⟨fun _ _ => rfl, hl, ?_, by simp [ha']⟩
      have hx : ∀ u : Station, u.candidate = some code → u.accepted = some code → u = { u with candidate := some code, accepted := some code } := by
        intro u p q; cases u; simp_all
      rw [if_pos hc']; exact hx _ hc ha
    · rw [if_neg ha]
      have ha' : t.accepted ≠ some code := ha
      have hst : ∀ b, ((s.modStation a fun t => { t with accepted := some code }).report (.condition a code (s.station a).accepted 0 s.now)).station b = (s.modStation a fun t => { t with accepted := some code }).station b := fun b => station_of_poll rfl b
      refine ⟨fun b hb => ?_, ?_, ?_, ?_⟩
      · rw [hst, State.station_modStation_ne _ _ _ _ hb]
      · exact (stations_length_modStation s a _).trans hl
      · rw [hst, station_modStation _ _ _ _ hl, if_pos ⟨rfl, h1, h2⟩, if_pos hc', ← hc']
      · rw [if_pos ⟨hc', ha'⟩]; simp [State.report, t]
  · rw [if_neg hc]
    have hc' : t.candidate ≠ some code := hc
    refine ⟨fun b hb => ?_, ?_, ?_, ?_⟩
    · rw [State.station_modStation_ne _ _ _ _ hb]
    · exact (stations_length_modStation s a _).trans hl
    · rw [station_modStation _ _ _ _ hl, if_pos ⟨rfl, h1, h2⟩, if_neg hc']
    · rw [if_neg (fun h => hc' h.1)]; simp

/-- A departure before the station's own entry is changed. -/
theorem Departure.modStation {s u : State} {a : Nat} {f} (h : Departure s u a) : Departure s (u.modStation a f) a :=
    by
  obtain ⟨h1,h2,h3,h4,h5,h6,h7,h8,h9,h10,h11,h12⟩ := h
  refine ⟨fun b hb => ?_, ?_, by simpa using h3, by simpa using h4, by simpa using h5, by simpa using h6, by simpa using h7, ?_, by simpa using h9, by simpa using h10, by simpa using h11, by simpa using h12⟩
  · rw [State.station_modStation_ne _ _ _ _ hb, h1 b hb]
  · apply PollUnit.eq_with_stations <;> simp <;> rw [h2]
  · intro n hn; rw [← h8 n hn]; unfold State.circuit; simp

/-- A departing ONLINE station leaves ONLINE. -/
theorem departs_true (s : State) (a n r) : s.departs a true n r = s.leaveOnline a n r := by simp [State.departs]

/-- Any other departing station loses its notes. -/
theorem departs_false (s : State) (a n r) : s.departs a false n r = s.loseNotes a := by simp [State.departs]

/-- What State.departs does to the station, the notes and the rest (R34, R61). -/
theorem departs_spec (s : State) (a : Nat) (new : StationState) (reason : StationReason) (hs : Shape s) (hn :
    (s.notes.store.map (·.handle)).Nodup) (ha1 : 1 ≤ a) (ha2 : a ≤ 30) :
    (∀ on, (s.departs a on new reason).station a =
      { s.station a with abortPending := (s.station a).abortPending || s.inFlightFor a } ∧ (s.departs a on new
      reason).poll.stations.length = 30)
    ∧ Departure s (s.departs a true new reason) a
    ∧ (∀ b, b ≠ a → (s.departs a false new reason).station b = s.station b)
    ∧ (s.departs a false new reason).notes =
      { s.notes with store := s.notes.store.filter fun n => decide (n.station ≠ a) } := by
  obtain ⟨d1, d2, d3⟩ := leaveOnline_spec s a new reason hs hn
  obtain ⟨l1, l2, l3⟩ := loseNotes_spec s a hs.stations hn
  rw [← departs_true] at d1 d2 d3
  rw [← departs_false s a new reason] at l1 l2
  have l3a := l3 a
  rw [if_pos ⟨rfl, ha1, ha2⟩, ← departs_false s a new reason] at l3a
  rw [if_pos ⟨ha1, ha2⟩] at d2
  refine ⟨fun on => ?_, d1, fun b hb => ?_, l1⟩
  · cases on with
    | true => exact ⟨d2, d3⟩
    | false => exact ⟨l3a, l2⟩
  · have := l3 b; rw [if_neg (fun h => hb h.1), ← departs_false s a new reason] at this; exact this

/-- Whether a note is IN_FLIGHT does not depend on the stations. -/
theorem inFlightFor_modStation (s : State) (a) (f) : (s.modStation a f).inFlightFor a = s.inFlightFor a :=
    inFlightFor_congr (by simp) a

/-- The station is the source of an open circuit. -/
theorem isSource_iff (s : State) (a : Nat) (h : s.circuits.length = 12) : s.isSource a = true ↔ ∃ n c, n < 12 ∧
    s.circuit n = some c ∧ c.source = a := by
  unfold State.isSource State.circuit
  rw [List.any_eq_true]
  constructor
  · rintro ⟨x, hx, hc⟩
    obtain ⟨n, hn, rfl⟩ := List.mem_iff_getElem.mp hx
    cases hcx : s.circuits[n] with
    | none => rw [hcx] at hc; simp at hc
    | some c => rw [hcx] at hc; exact ⟨n, c, by omega, by rw [List.getElem?_eq_getElem hn, hcx]; rfl, by simpa using hc⟩
  · rintro ⟨n, c, hn, hc, rfl⟩
    have hn' : n < s.circuits.length := by omega
    rw [List.getElem?_eq_getElem hn'] at hc
    exact ⟨s.circuits[n], List.getElem_mem hn', by rw [show s.circuits[n] = some c from hc]; simp⟩

/-- The entries do not depend on the host link. -/
theorem station_with_link (s : State) (l : HostLink) (a : Nat) : State.station { s with link := l } a = s.station a :=
    station_of_poll rfl a

/-- A departure says nothing of the host link. -/
theorem Departure.with_link {s v : State} {a : Nat} (h : Departure s.afterTaking v a) : Departure s
    { v with link := s.link } a :=
  ⟨fun b hb => (station_with_link _ _ b).trans (h.1 b hb), h.2, h.3, h.4, h.5, h.6, h.7, h.8, h.9, h.10, h.11, h.12⟩

/-- Two changes of one entry. -/
theorem modStation_modStation (s : State) (a : Nat) (f g : Station → Station) : (s.modStation a f).modStation a g =
    s.modStation a (g ∘ f) := by
  cases a <;> simp [State.modStation, List.modify_modify_eq]

/-- Taking a frame keeps every table's size. -/
theorem Shape.afterTaking {s : State} (h : Shape s) : Shape s.afterTaking := ⟨h.1, h.2, h.3, h.4, h.5, h.6, h.7⟩

/-- The station addresses (R22). -/
theorem isStation_true_iff (n : Nat) : isStation n = true ↔ (1 ≤ n ∧ n ≤ 30) := by simp [isStation, Config.stations]

/-- A departure's reports do not depend on the station entries. -/
theorem departureReports_modStation (s : State) (b : Nat) (f) (a : Nat) (new : StationState) (reason : StationReason)
    :
    (s.modStation b f).departureReports a new reason = s.departureReports a new reason := by
  simp [State.departureReports, State.lostNotesReports, State.circuit]

/-- A departure's reports do not depend on the host link. -/
theorem departureReports_afterTaking (s : State) (a : Nat) (new : StationState) (reason : StationReason) :
    s.afterTaking.departureReports a new reason = s.departureReports a new reason := by
  simp only [State.departureReports, State.lostNotesReports, State.circuit, State.afterTaking]

/-- The completions of lost notes do not depend on the host link. -/
theorem lostNotesReports_afterTaking (s : State) (a : Nat) (u : ReportUnit) : s.afterTaking.lostNotesReports a u =
    s.lostNotesReports a u := by
  simp only [State.lostNotesReports, State.afterTaking]

/-- What State.departs hands over (R34, R61). -/
theorem departs_rep (s : State) (a : Nat) (on : Bool) (new : StationState) (reason : StationReason) (hs : Shape s) :
    (s.departs a on new reason).rep = if on = true then s.departureReports a new reason else s.lostNotesReports a
      s.rep := by
  unfold State.departs; cases on
  · exact loseNotes_rep s a
  · exact leaveOnline_rep s a new reason hs

/-- What a withdrawal hands over (R42). -/
theorem withdraw_rep (s : State) (a : Nat) (hs : Shape s) :
    (s.withdraw a).rep = if s.isOnline a = true then s.departureReports a .free .withdraw else s.lostNotesReports a
      s.rep := by
  unfold State.withdraw
  rw [State.modStation_rep, departs_rep _ _ _ _ _ (Shape.modStation hs _ _), departureReports_modStation, State.modStation_rep]
  unfold State.lostNotesReports; rw [State.modStation_notes, State.modStation_line]

/-- What a bar hands over (R43). -/
theorem bar_rep (s : State) (a : Nat) (hs : Shape s) :
    (s.bar a).rep = if s.isOnline a = true then s.departureReports a .barred .bar else s.lostNotesReports a s.rep :=
      by
  unfold State.bar
  rw [departs_rep _ _ _ _ _ (Shape.modStation hs _ _), departureReports_modStation, State.modStation_rep]
  unfold State.lostNotesReports; rw [State.modStation_notes, State.modStation_line]

/-- The note a handle names. -/
theorem note?_of_split {x : State} {A : List Note} {n : Note} {B : List Note} (h : x.notes.store = A ++ n :: B) (hA :
    ∀ m ∈ A ++ B, m.handle ≠ n.handle) : x.note? n.handle = some n := by
  unfold State.note?; rw [h, List.find?_append, List.find?_eq_none.mpr]
  · simp
  · intro m hm; have := hA m (List.mem_append_left _ hm); simpa using this

/-- The store without the note a handle names. -/
theorem filter_of_split {A : List Note} {n : Note} {B : List Note} (hA : ∀ m ∈ A ++ B, m.handle ≠ n.handle) : (A ++ n
    :: B).filter (fun m => m.handle != n.handle) = A ++ B := by
  have f : ∀ l : List Note, (∀ m ∈ l, m.handle ≠ n.handle) → l.filter (fun m => m.handle != n.handle) = l := by
    intro l hl; rw [List.filter_eq_self]; intro m hm; simpa using hl m hm
  rw [List.filter_append, List.filter_cons, f A fun m hm => hA m (List.mem_append_left _ hm), f B fun m hm => hA m (List.mem_append_right _ hm)]
  simp

/-- The store with the note a handle names changed. -/
theorem map_of_split {A : List Note} {n : Note} {B : List Note} {k : Nat} (hk : n.handle = k) (hA : ∀ m ∈ A ++ B,
    m.handle ≠ n.handle) (f : Note → Note) : (A ++ n :: B).map (fun m => if m.handle = k then f m else m) = A ++ f n
    :: B := by
  subst hk
  have g : ∀ l : List Note, (∀ m ∈ l, m.handle ≠ n.handle) → l.map (fun m => if m.handle = n.handle then f m else m) = l := by
    intro l hl; rw [List.map_congr_left (g := id)]; simp; intro m hm; rw [if_neg (hl m hm)]; rfl
  rw [List.map_append, List.map_cons, g A fun m hm => hA m (List.mem_append_left _ hm), g B fun m hm => hA m (List.mem_append_right _ hm)]
  simp

/-- A completion leaves the resend list. -/
theorem complete_keeps_resend (s : State) (e : Completion) : (s.complete e).rep.resend = s.rep.resend :=
    transfer_keeps_resend _ _

/-- A report handed over leaves the resend list. -/
theorem report_keeps_resend (s : State) (r : Report) : (s.report r).rep.resend = s.rep.resend := (handOver_frame _
    _).2.2.1

/-- A finished note leaves the resend list. -/
theorem finishNote_keeps_resend (s : State) (n o) : (s.finishNote n o).rep.resend = s.rep.resend := by
  unfold State.finishNote; dsimp only; rw [complete_keeps_resend]; split <;> simp

/-- Finished notes leave the resend list. -/
theorem finishNotes_keeps_resend (ns : List Note) (s : State) (o) : (s.finishNotes ns o).rep.resend = s.rep.resend :=
    by
  induction ns generalizing s with
  | nil => rfl
  | cons n ns ih => show ((s.finishNote n o).finishNotes ns o).rep.resend = _; rw [ih, finishNote_keeps_resend]

/-- An entry under the line-down effects (R35). -/
def Station.downed (t : Station) : Station := if t.state = .free ∨ t.state = .barred then t else
    { t with state := .offline, missCount := 0, candidate := none }

/-- What the line-down effects do to one station (R35). -/
theorem stationDown_spec (s : State) (a : Nat) (hl : s.poll.stations.length = 30) (h1 : 1 ≤ a) (h2 : a ≤ 30) :
    (∀ b, (s.stationDown a).station b = if b = a then Station.downed (s.station b) else s.station b)
    ∧ (s.stationDown a).poll.stations.length = 30 ∧ (s.stationDown a).rep.resend = s.rep.resend := by
  unfold State.stationDown; dsimp only
  by_cases hr : (s.station a).state.inRing = true
  · rw [if_pos hr]
    have hd : ∀ b, (s.modStation a fun t => { t with state := .offline, missCount := 0, candidate := none }).station b = if b = a then Station.downed (s.station b) else s.station b := by
      intro b; rw [station_modStation _ _ _ _ hl]
      by_cases hb : b = a
      · subst hb; rw [if_pos ⟨rfl, h1, h2⟩, if_pos rfl]; unfold Station.downed; rw [if_neg]
        rw [inRing_iff] at hr; rintro (h | h); exact hr.1 h; exact hr.2 h
      · rw [if_neg (fun h => hb h.1), if_neg hb]
    have hlen := (stations_length_modStation s a fun t => { t with state := .offline, missCount := 0, candidate := none }).trans hl
    split
    · exact ⟨fun b => (station_of_poll rfl b).trans (hd b), hlen, by rw [show ∀ (x : State) p q r, (x.reportStation a p q r).rep.resend = x.rep.resend from fun x p q r => report_keeps_resend _ _]; simp⟩
    · exact ⟨hd, hlen, by simp⟩
  · rw [if_neg hr]
    refine ⟨fun b => ?_, hl, rfl⟩
    by_cases hb : b = a
    · subst hb; rw [if_pos rfl]; unfold Station.downed; rw [if_pos]
      rw [inRing_iff] at hr; by_contra h; exact hr ⟨fun x => h (.inl x), fun x => h (.inr x)⟩
    · rw [if_neg hb]

/-- The stations up to k under the line-down effects. -/
theorem foldl_stationDown (s : State) (k : Nat) (hk : k ≤ 30) (hl : s.poll.stations.length = 30) :
    let t := (List.range' 1 k).foldl State.stationDown s
    (∀ b, t.station b = if 1 ≤ b ∧ b ≤ k then Station.downed (s.station b) else s.station b)
    ∧ t.poll.stations.length = 30 ∧ t.rep.resend = s.rep.resend := by
  induction k with
  | zero => intro t; exact ⟨fun b => by rw [if_neg (by omega)]; rfl, hl, rfl⟩
  | succ k ih =>
    obtain ⟨i1, i2, i3⟩ := ih (by omega)
    intro t
    have ht : t = ((List.range' 1 k).foldl State.stationDown s).stationDown (1 + k) := by
      simp only [t, List.range'_1_concat, List.foldl_append, List.foldl_cons, List.foldl_nil]
    rw [ht]
    generalize (List.range' 1 k).foldl State.stationDown s = x at *
    obtain ⟨d1, d2, d3⟩ := stationDown_spec x (1+k) i2 (by omega) (by omega)
    refine ⟨fun b => ?_, d2, d3.trans i3⟩
    rw [d1, i1]
    by_cases hb : b = 1 + k
    · subst hb; rw [if_pos rfl, if_neg (by omega), if_pos (by omega)]
    · rw [if_neg hb]
      by_cases hb2 : 1 ≤ b ∧ b ≤ k
      · rw [if_pos hb2, if_pos (by omega)]
      · rw [if_neg hb2, if_neg (by omega)]

/-- What the line-down effects do to the stations (R35). -/
theorem stationsDown_spec (s : State) (hl : s.poll.stations.length = 30) :
    (∀ b, s.stationsDown.station b = if 1 ≤ b ∧ b ≤ 30 then Station.downed (s.station b) else s.station b)
    ∧ s.stationsDown.poll.stations.length = 30 ∧ s.stationsDown.rep.resend = s.rep.resend := by
  have h := foldl_stationDown s 30 (by omega) hl
  unfold State.stationsDown Config.stations
  exact h

/-- What the line-down effects do to the notes (R62). -/
theorem stopNotes_spec (s : State) (hl : s.poll.stations.length = 30) (hn : (s.notes.store.map (·.handle)).Nodup) (hr
    : ∀ n ∈ s.notes.store, 1 ≤ n.station ∧ n.station ≤ 30) :
    s.stopNotes.notes = { s.notes with store := s.notes.store.filter fun n => decide (n.state ≠ .inFlight) }
    ∧ (∀ b, 1 ≤ b → b ≤ 30 → s.stopNotes.station b =
      { s.station b with abortPending := (s.station b).abortPending || s.inFlightFor b })
    ∧ s.stopNotes.rep.resend = s.rep.resend := by
  unfold State.stopNotes
  obtain ⟨f1, f2, f3⟩ := finishNotes_spec ((List.range' 1 Config.stations).flatMap fun a => (s.notesOf a).filter fun n => decide (n.state = .inFlight)) s .lineStopped (by simp) hl
  have hm : ∀ n, n ∈ ((List.range' 1 Config.stations).flatMap fun a => (s.notesOf a).filter fun n => decide (n.state = .inFlight)) ↔ n ∈ s.notes.store ∧ n.state = .inFlight := by
    intro n
    simp only [List.mem_flatMap, List.mem_range'_1, List.mem_filter, State.notesOf, decide_eq_true_eq, beq_iff_eq, Config.stations]
    constructor
    · rintro ⟨a, _, ⟨h, _⟩, h2⟩; exact ⟨h, h2⟩
    · rintro ⟨h, h2⟩; exact ⟨n.station, ⟨(hr n h).1, by have := (hr n h).2; omega⟩, ⟨h, by trivial⟩, h2⟩
  refine ⟨?_, fun b h1 h2 => ?_, finishNotes_keeps_resend _ _ _⟩
  · have hs : (s.finishNotes ((List.range' 1 Config.stations).flatMap fun a => (s.notesOf a).filter fun n => decide (n.state = .inFlight)) .lineStopped).notes.store = s.notes.store.filter fun n => decide (n.state ≠ .inFlight) := by
      refine f1.trans (List.filter_congr fun m hm2 => ?_)
      have : m.handle ∈ (((List.range' 1 Config.stations).flatMap fun a => (s.notesOf a).filter fun n => decide (n.state = .inFlight))).map (·.handle) ↔ m.state = .inFlight := by
        constructor
        · intro h
          obtain ⟨x, hx, hxm⟩ := List.mem_map.mp h
          have hx2 := (hm x).mp hx
          have := List.inj_on_of_nodup_map hn hx2.1 hm2 hxm
          subst this; exact hx2.2
        · intro h; exact List.mem_map_of_mem ((hm m).mpr ⟨hm2, h⟩)
      simp only [this, ne_eq, decide_not]
    have hc : (s.finishNotes ((List.range' 1 Config.stations).flatMap fun a => (s.notesOf a).filter fun n => decide (n.state = .inFlight)) .lineStopped).notes.callOut = s.notes.callOut := by simp
    have hh : (s.finishNotes ((List.range' 1 Config.stations).flatMap fun a => (s.notesOf a).filter fun n => decide (n.state = .inFlight)) .lineStopped).notes.lastHandle = s.notes.lastHandle := by simp
    generalize (s.finishNotes ((List.range' 1 Config.stations).flatMap fun a => (s.notesOf a).filter fun n => decide (n.state = .inFlight)) .lineStopped).notes = q at hs hc hh
    cases q; simp_all
  · rw [f3, if_pos ⟨h1, h2⟩]
    have : (((List.range' 1 Config.stations).flatMap fun a => (s.notesOf a).filter fun n => decide (n.state = .inFlight)).any fun n => decide (n.station = b ∧ n.state = .inFlight)) = s.inFlightFor b := by
      rw [Bool.eq_iff_iff, List.any_eq_true]
      unfold State.inFlightFor; rw [List.any_eq_true]
      constructor
      · rintro ⟨n, h, h2⟩; exact ⟨n, ((hm n).mp h).1, h2⟩
      · rintro ⟨n, h, h2⟩; exact ⟨n, (hm n).mpr ⟨h, (of_decide_eq_true h2).2⟩, h2⟩
    rw [this]

/-- What discarding the packet in progress does (R150). -/
theorem discardPacket_spec (t : State) : t.discardPacket.rx = t.rx.discarded ∧ t.discardPacket.free = t.free +
    t.rx.held := by
  unfold State.discardPacket Receiver.discarded
  split
  · next h => exact ⟨rfl, by simp [Receiver.held, h]⟩
  · exact ⟨by simp [sat16, satAdd], rfl⟩

/-- What the line-down effects do to the window unit and the receiver (R104). -/
theorem windowDown_spec (s : State) (h : s.rx.state ≠ .idle → s.window.window ≠ none) :
    s.windowDown.window = { s.window with window := none, queue := [] } ∧ s.windowDown.rx = s.rx.discarded
    ∧ s.windowDown.free = s.free + s.rx.held ∧ s.windowDown.rep.resend = s.rep.resend := by
  unfold State.windowDown State.endWindow
  cases hw : s.window.window with
  | none =>
    have hi : s.rx.state = .idle := by by_contra hc; exact h hc hw
    simp only
    refine ⟨?_, ?_, ?_, by trivial⟩
    · rw [hw]
    · simp [Receiver.discarded, hi]
    · simp [Receiver.held, hi]
  | some w =>
    simp only [WindowEnd.fault, WindowEnd.byReceiver, Bool.false_eq_true, if_false]
    refine ⟨by simp, (discardPacket_spec s).1, (discardPacket_spec s).2, ?_⟩
    unfold State.discardPacket; split <;> rfl

/-- A lane under the line-down effects (R135). -/
def Lane.stopped (x : Lane) : Lane :=
  { x with engine := .idle, activeSet := [], gapCount := 0, runningCheck := 0xFFFF#16
           queue := if (x.queue.head?.any Packet.started) = true then x.queue.tail else x.queue }

/-- The blocks of the packet that the line-down effects finish on a lane. -/
def Lane.headBlocks (x : Lane) : Nat := ((x.queue.head?.filter Packet.started).map fun p => blocksFor p.declared).getD
    0

/-- What the line-down effects do to one lane (R135). -/
theorem stopLane_spec (s : State) (l : Nat) (hl : l < s.lanes.length) (hd : ((s.lane l).queue.map (·.handle)).Nodup) :
    (∀ k, (s.stopLane l).lane k = if k = l then Lane.stopped (s.lane k) else s.lane k)
    ∧ (s.stopLane l).lanes.length = s.lanes.length
    ∧ (s.stopLane l).free = s.free + Lane.headBlocks (s.lane l) ∧ (s.stopLane l).rep.resend = s.rep.resend := by
  unfold State.stopLane; dsimp only
  cases hq : (s.lane l).queue with
  | nil =>
    simp only
    refine ⟨fun k => ?_, by simp [State.modLane], by simp [Lane.headBlocks, hq], by simp⟩
    by_cases hk : k = l
    · subst hk; rw [if_pos rfl, State.lane_modLane_self _ _ _ hl]; simp [Lane.stopped, hq, Lane.rest, crcPreset]
    · rw [if_neg hk, State.lane_modLane_ne _ _ _ _ hk]
  | cons p rest =>
    simp only
    by_cases hp : p.started = true
    · rw [if_pos hp]
      have hlane : ∀ k, (s.finishPacket l p .aborted (some .lineStopped)).lane k = if k = l then { s.lane l with queue := rest } else s.lane k := by
        intro k
        have e : (s.finishPacket l p .aborted (some .lineStopped)).lane k = (s.modLane l fun x => { x with queue := x.queue.filter fun q => q.handle != p.handle }).lane k := rfl
        rw [e]
        by_cases hk : k = l
        · subst hk; rw [if_pos rfl, State.lane_modLane_self _ _ _ hl]; congr 1
          rw [hq, List.filter_cons]; simp only [bne_self_eq_false, Bool.false_eq_true, if_false]
          rw [hq] at hd; simp only [List.map_cons, List.nodup_cons] at hd
          rw [List.filter_eq_self]; intro q hq2
          simp only [bne_iff_ne, ne_eq]; intro h; exact hd.1 (h ▸ List.mem_map_of_mem hq2)
        · rw [if_neg hk, State.lane_modLane_ne _ _ _ _ hk]
      have hlen : (s.finishPacket l p .aborted (some .lineStopped)).lanes.length = s.lanes.length := by simp [State.finishPacket, State.complete, State.modLane]
      refine ⟨fun k => ?_, ?_, ?_, ?_⟩
      · by_cases hk : k = l
        · subst hk; rw [if_pos rfl, State.lane_modLane_self _ _ _ (by rw [hlen]; exact hl), hlane, if_pos rfl]
          simp [Lane.stopped, hq, hp, Lane.rest, crcPreset]
        · rw [if_neg hk, State.lane_modLane_ne _ _ _ _ hk, hlane, if_neg hk]
      · simp [State.modLane, hlen]
      · simp [Lane.headBlocks, hq, Option.filter, hp, State.finishPacket, State.complete, State.modLane]
      · rw [State.modLane_rep]; exact complete_keeps_resend _ _
    · rw [if_neg hp]
      refine ⟨fun k => ?_, by simp [State.modLane], by simp [Lane.headBlocks, hq, Option.filter, hp], by simp⟩
      by_cases hk : k = l
      · subst hk; rw [if_pos rfl, State.lane_modLane_self _ _ _ hl]; simp [Lane.stopped, hq, hp, Lane.rest, crcPreset]
      · rw [if_neg hk, State.lane_modLane_ne _ _ _ _ hk]

/-- The lanes below k under the line-down effects. -/
theorem foldl_stopLane (s : State) (k : Nat) (hk : k ≤ s.lanes.length) (hd : ∀ l, ((s.lane l).queue.map
    (·.handle)).Nodup) :
    let t := (List.range k).foldl State.stopLane s
    (∀ l, t.lane l = if l < k then Lane.stopped (s.lane l) else s.lane l)
    ∧ t.lanes.length = s.lanes.length ∧ t.free = s.free + ((s.lanes.take k).map Lane.headBlocks).sum ∧ t.rep.resend =
      s.rep.resend := by
  induction k with
  | zero => intro t; exact ⟨fun l => rfl, rfl, by simp [t], rfl⟩
  | succ k ih =>
    obtain ⟨i1, i2, i3, i4⟩ := ih (by omega)
    intro t
    have ht : t = ((List.range k).foldl State.stopLane s).stopLane k := by
      simp only [t, List.range_succ, List.foldl_append, List.foldl_cons, List.foldl_nil]
    rw [ht]
    generalize (List.range k).foldl State.stopLane s = x at *
    have hxk : x.lane k = s.lane k := by rw [i1, if_neg (by omega)]
    obtain ⟨d1, d2, d3, d4⟩ := stopLane_spec x k (by omega) (by rw [hxk]; exact hd k)
    refine ⟨fun l => ?_, d2.trans i2, ?_, d4.trans i4⟩
    · rw [d1, i1]
      by_cases hb : l = k
      · subst hb; rw [if_pos rfl, if_neg (by omega), if_pos (by omega)]
      · rw [if_neg hb]
        by_cases hb2 : l < k
        · rw [if_pos hb2, if_pos (by omega)]
        · rw [if_neg hb2, if_neg (by omega)]
    · rw [d3, i3, hxk, List.take_add_one, List.getElem?_eq_getElem (by omega : k < s.lanes.length)]
      have : s.lane k = s.lanes[k] := by simp [State.lane, List.getElem?_eq_getElem (by omega : k < s.lanes.length)]
      simp only [Option.toList_some, List.map_append, List.map_cons, List.map_nil, List.sum_append, List.sum_cons, List.sum_nil, ← this]; omega

/-- What the line-down effects do to the lanes (R135). -/
theorem stopLanes_spec (s : State) (hk : 4 ≤ s.lanes.length) (hd : ∀ l, ((s.lane l).queue.map (·.handle)).Nodup) :
    (∀ l, s.stopLanes.lane l = if l < 4 then Lane.stopped (s.lane l) else s.lane l)
    ∧ s.stopLanes.free = s.free + ((s.lanes.take 4).map Lane.headBlocks).sum ∧ s.stopLanes.rep.resend = s.rep.resend
      := by
  have h := foldl_stopLane s 4 hk hd
  unfold State.stopLanes Config.lanes
  exact ⟨h.1, h.2.2.1, h.2.2.2⟩

/-- What the line-down effects do (R13). -/
theorem lineDown_spec (s : State) (hs : Shape s) (hl : LiveHandles s) (hw : s.rx.state ≠ .idle → s.window.window ≠
    none) :
    LineDown s s.lineDown := by
  have hr := hl.stations
  have F := State.lineDown_frame s
  have e : s.lineDown = s.stationsDown.stopNotes.windowDown.stopLanes.silenceCircuits := rfl
  have hpoll := PollUnit.eq_with_stations (p := s.lineDown.poll) (q := s.poll) (by simp) (by simp) (by simp)
  have hn : (s.notes.store.map (·.handle)).Nodup := (List.nodup_append.mp hl.notes).1
  obtain ⟨a1, a2, a3⟩ := stationsDown_spec s hs.stations
  have an : s.stationsDown.notes = s.notes := by simp
  have aw : s.stationsDown.window = s.window := by simp
  have ar : s.stationsDown.rx = s.rx := by simp
  have af : s.stationsDown.free = s.free := by simp
  have al : s.stationsDown.lanes = s.lanes := by simp
  generalize s.stationsDown = t1 at *
  obtain ⟨b1, b2, b3⟩ := stopNotes_spec t1 a2 (by rw [an]; exact hn) (by rw [an]; exact hr)
  have bw : t1.stopNotes.window = s.window := by simp [aw]
  have br : t1.stopNotes.rx = s.rx := by simp [ar]
  have bf : t1.stopNotes.free = s.free := by simp [af]
  have bl : t1.stopNotes.lanes = s.lanes := by simp [al]
  generalize t1.stopNotes = t2 at *
  obtain ⟨c1, c2, c3, c4⟩ := windowDown_spec t2 (by rw [br, bw]; exact hw)
  have cp : t2.windowDown.poll = t2.poll := by simp
  have cn : t2.windowDown.notes = t2.notes := by simp
  have cl : t2.windowDown.lanes = s.lanes := by simp [bl]
  generalize t2.windowDown = t3 at *
  have hq : ∀ l, ((s.lane l).queue.map (·.handle)).Nodup := by
    intro l
    have := (List.nodup_append.mp hl.packets).1
    rw [List.nodup_flatMap] at this
    unfold State.lane
    by_cases h : l < s.lanes.length
    · rw [List.getElem?_eq_getElem h]; exact this.1 _ (List.getElem_mem h)
    · rw [List.getElem?_eq_none (by omega)]; simp [Lane.fresh]
  have clane : ∀ l, t3.lane l = s.lane l := fun l => by unfold State.lane; rw [cl]
  obtain ⟨d1, d3, d4⟩ := stopLanes_spec t3 (by rw [cl, hs.lanes]) (fun l => by rw [clane]; exact hq l)
  have dp : t3.stopLanes.poll = t3.poll := by simp
  have dn : t3.stopLanes.notes = t3.notes := by simp
  have dw : t3.stopLanes.window = t3.window := by simp
  have dr : t3.stopLanes.rx = t3.rx := by simp
  have dc : t3.stopLanes.circuits = t3.circuits := by simp
  have hcirc : ∀ n, s.lineDown.circuit n = (s.circuit n).map Circuit.emptied := by
    intro n
    have : s.lineDown.circuits = s.circuits.map (Option.map Circuit.silence) := by
      unfold State.lineDown State.silenceCircuits; simp
    unfold State.circuit; rw [this, List.getElem?_map]
    cases s.circuits[n]? with
    | none => rfl
    | some x => cases x <;> rfl
  have hst : ∀ b, s.lineDown.station b = t2.station b := fun b => station_of_poll (by rw [e]; exact (dp.trans cp)) b
  have hsc : ∀ x : State, x.silenceCircuits.lanes = x.lanes ∧ x.silenceCircuits.free = x.free ∧ x.silenceCircuits.notes = x.notes ∧ x.silenceCircuits.window = x.window ∧ x.silenceCircuits.rx = x.rx ∧ x.silenceCircuits.rep = x.rep := fun x => ⟨rfl, rfl, rfl, rfl, rfl, rfl⟩
  refine ⟨fun a h1 h2 => ?_, hpoll, ?_, ?_, ?_, ?_, fun l h => ?_, hcirc, F.2.1, ?_, ?_, ?_⟩
  · rw [hst, b2 a h1 h2, a1, if_pos ⟨h1, h2⟩, inFlightFor_congr an]; rfl
  · rw [e, (hsc _).2.2.1, dn, cn, b1, an]
  · rw [e, (hsc _).2.2.2.1, dw, c1, bw]
  · rw [e, (hsc _).2.2.2.2.1, dr, c2, br]
  · rw [e, (hsc _).2.1, d3, c3, bf, br, cl]
    have : (s.lanes.take 4) = s.lanes := List.take_of_length_le (by rw [hs.lanes])
    rw [this]; rfl
  · have : s.lineDown.lane l = t3.stopLanes.lane l := by unfold State.lane; rw [e, (hsc _).1]
    rw [this, d1, if_pos h, clane]; rfl
  · simp
  · simp
  · rw [e, (hsc _).2.2.2.2.2, d4, c4, b3, a3]

/-- The completion of a packet that finishes ABORTED (R137). -/
theorem Packet.done_aborted (p : Packet) (l : Nat) (r : PacketReason) (now : BitVec 16) :
    Completion.packet (p.done l .aborted (some r) now) = p.abortedCompletion l r now := by
  unfold Packet.done Packet.abortedCompletion Packet.sentAtFinish Packet.bodyOut
  cases p.state <;> rfl

/-- What a packet that finishes ABORTED hands over (R136). -/
theorem finishPacket_rep (s : State) (l : Nat) (p : Packet) (r : PacketReason) :
    (s.finishPacket l p .aborted (some r)).rep = s.rep.placed s.line.cycleCounter (p.abortedCompletion l r
      s.line.cycleCounter) := by
  unfold State.finishPacket; dsimp only [State.complete, ReportUnit.placed, State.now]; rw [Packet.done_aborted]; rfl

/-- A packet that has started. -/
theorem Packet.started_eq (p : Packet) : p.started = decide (p.state = .sending ∨ p.state = .aborting) := by
  unfold Packet.started; cases p.state <;> rfl

/-- What the line-down effects hand over for one lane (R135). -/
theorem stopLane_rep (s : State) (l : Nat) :
    (s.stopLane l).rep = ((((s.lane l).queue.head?.filter fun p => decide (p.state = .sending ∨ p.state =
      .aborting)).map fun p =>
      p.abortedCompletion l .lineStopped s.line.cycleCounter).toList).foldl (ReportUnit.placed s.line.cycleCounter)
        s.rep := by
  unfold State.stopLane; dsimp only
  rw [State.modLane_rep]
  cases hq : (s.lane l).queue with
  | nil => rfl
  | cons p rest =>
    simp only [List.head?_cons, Option.filter_some, ← Packet.started_eq]
    split
    · rw [finishPacket_rep]; rfl
    · rfl

/-- What the line-down effects hand over for the lanes below k (R135). -/
theorem foldl_stopLane_rep (s : State) (k : Nat) (hk : k ≤ s.lanes.length) (hd : ∀ l, ((s.lane l).queue.map
    (·.handle)).Nodup) :
    ((List.range k).foldl State.stopLane s).rep =
      ((List.range k).filterMap fun l => ((s.lane l).queue.head?.filter fun p => decide (p.state = .sending ∨ p.state
        = .aborting)).map fun p =>
        p.abortedCompletion l .lineStopped s.line.cycleCounter).foldl (ReportUnit.placed s.line.cycleCounter) s.rep
    ∧ ((List.range k).foldl State.stopLane s).line = s.line := by
  induction k with
  | zero => exact ⟨rfl, rfl⟩
  | succ k ih =>
    obtain ⟨i1, i2⟩ := ih (by omega)
    obtain ⟨f1, -⟩ := foldl_stopLane s k (by omega) hd
    simp only [List.range_succ, List.foldl_append, List.foldl_cons, List.foldl_nil, List.filterMap_append]
    generalize (List.range k).foldl State.stopLane s = x at *
    have hxk : x.lane k = s.lane k := by rw [f1, if_neg (by omega)]
    rw [stopLane_rep, hxk, i1, i2]
    refine ⟨?_, by simp [i2]⟩
    congr 1

/-- What the line-down effects hand over for one station (R35). -/
theorem stationDown_rep (s : State) (a : Nat) :
    (s.stationDown a).rep = (if (s.station a).state = .online then s.rep.handOver (.stationState a .offline .online
      .lineDown s.line.cycleCounter) else s.rep)
    ∧ (s.stationDown a).line = s.line := by
  refine ⟨?_, by simp⟩
  unfold State.stationDown; dsimp only
  by_cases h : (s.station a).state = .online
  · rw [if_pos h, if_pos (by rw [h]; rfl), if_pos h]; simp [State.reportStation, State.report, State.now]
  · rw [if_neg h, if_neg h]; split
    · simp
    · rfl

/-- What the line-down effects hand over for the stations up to k (R35). -/
theorem foldl_stationDown_rep (s : State) (k : Nat) (hk : k ≤ 30) (hl : s.poll.stations.length = 30) :
    ((List.range' 1 k).foldl State.stationDown s).rep =
      (((List.range' 1 k).filter fun a => decide ((s.station a).state = .online)).map fun a =>
        Report.stationState a .offline .online .lineDown s.line.cycleCounter).foldl ReportUnit.handOver s.rep
    ∧ ((List.range' 1 k).foldl State.stationDown s).line = s.line := by
  induction k with
  | zero => exact ⟨rfl, rfl⟩
  | succ k ih =>
    obtain ⟨i1, i2⟩ := ih (by omega)
    obtain ⟨f1, -, -⟩ := foldl_stationDown s k (by omega) hl
    simp only [List.range'_1_concat, List.foldl_append, List.foldl_cons, List.foldl_nil, List.filter_append, List.map_append]
    generalize (List.range' 1 k).foldl State.stationDown s = x at *
    have hxk : x.station (1 + k) = s.station (1 + k) := by rw [f1, if_neg (by omega)]
    obtain ⟨d1, d2⟩ := stationDown_rep x (1 + k)
    refine ⟨?_, d2.trans i2⟩
    rw [d1, hxk, i1, i2]
    by_cases h : (s.station (1 + k)).state = .online <;> simp [h]

/-- The window unit hands nothing over when the line goes down (R104). -/
theorem windowDown_rep (s : State) : s.windowDown.rep = s.rep := by
  have hd : ∀ t : State, t.discardPacket.rep = t.rep := by intro t; unfold State.discardPacket; split <;> rfl
  unfold State.windowDown State.endWindow
  cases hw : s.window.window with
  | none => rfl
  | some w => simp only [WindowEnd.fault, WindowEnd.byReceiver, Bool.false_eq_true, if_false, hd]

/-- What the line-down effects hand over, in order (R13). -/
theorem lineDown_rep (s : State) (hs : Shape s) (hl : LiveHandles s) : s.lineDown.rep = s.lineDownReports s.rep := by
  have e : s.lineDown = s.stationsDown.stopNotes.windowDown.stopLanes.silenceCircuits := rfl
  obtain ⟨a1, a2⟩ := foldl_stationDown_rep s 30 (by omega) hs.stations
  have an : s.stationsDown.notes = s.notes := by simp
  have al : s.stationsDown.lanes = s.lanes := by simp
  have a1 : s.stationsDown.rep = _ := a1
  have a2 : s.stationsDown.line = s.line := a2
  generalize s.stationsDown = t1 at *
  have b1 := finishNotes_rep ((List.range' 1 Config.stations).flatMap fun a => (t1.notesOf a).filter fun n => decide (n.state = .inFlight)) t1 .lineStopped
  have b1 : t1.stopNotes.rep = _ := b1
  have bl : t1.stopNotes.lanes = s.lanes := by simp [al]
  have bli : t1.stopNotes.line = s.line := by simp [a2]
  generalize t1.stopNotes = t2 at *
  have c1 := windowDown_rep t2
  have cl : t2.windowDown.lanes = s.lanes := by simp [bl]
  have cli : t2.windowDown.line = s.line := by simp [bli]
  generalize t2.windowDown = t3 at *
  have hq : ∀ l, ((t3.lane l).queue.map (·.handle)).Nodup := by
    intro l
    have := (List.nodup_append.mp hl.packets).1
    rw [List.nodup_flatMap] at this
    unfold State.lane; rw [cl]
    by_cases h : l < s.lanes.length
    · rw [List.getElem?_eq_getElem h]; exact this.1 _ (List.getElem_mem h)
    · rw [List.getElem?_eq_none (by omega)]; simp [Lane.fresh]
  obtain ⟨d1, -⟩ := foldl_stopLane_rep t3 4 (by rw [cl, hs.lanes]) hq
  have d1 : t3.stopLanes.rep = _ := d1
  rw [e, show ∀ x : State, x.silenceCircuits.rep = x.rep from fun x => rfl, d1, c1, b1, a1, a2, cli]
  unfold State.lineDownReports
  simp only [State.notesOf, an, List.filter_filter, List.foldl_append, State.lane, cl, List.map_flatMap, Config.stations]
  have : ∀ (a : Nat) (n : Note), (decide (n.state = .inFlight) && n.station == a) = decide (n.station = a ∧ n.state = .inFlight) := by
    intro a n; rw [Bool.beq_eq_decide_eq, ← Bool.decide_and, Bool.decide_congr and_comm]
  simp only [this]

/-- The reports of the line-down effects on a state that agrees on what they read. -/
theorem lineDownReports_of_eq {s t : State} (hp : s.poll = t.poll) (hn : s.notes = t.notes) (hl : s.lanes = t.lanes)
    (hc : s.line.cycleCounter = t.line.cycleCounter) (u : ReportUnit) : s.lineDownReports u = t.lineDownReports u :=
      by
  simp only [State.lineDownReports, station_of_poll hp, State.lane, hn, hl, hc]

/-- The line-down effects on a state that agrees on what they read. -/
theorem LineDown.of_eq {s s2 u : State} (h : LineDown s2 u) (hp : s2.poll = s.poll) (hn : s2.notes = s.notes) (hw :
    s2.window = s.window)
    (hr : s2.rx = s.rx) (hf : s2.free = s.free) (hl : s2.lanes = s.lanes) (hc : s2.circuits = s.circuits) (hs :
      s2.slots = s.slots)
    (hm : s2.mailboxes = s.mailboxes) (hh : s2.lastPacketHandle = s.lastPacketHandle) (hre : s2.rep.resend =
      s.rep.resend) : LineDown s u := by
  obtain ⟨h1,h2,h3,h4,h5,h6,h7,h8,h9,h10,h11,h12⟩ := h
  have e1 : ∀ a, s2.station a = s.station a := fun a => station_of_poll hp a
  have e2 : ∀ a, s2.inFlightFor a = s.inFlightFor a := fun a => inFlightFor_congr hn a
  have e3 : ∀ l, s2.lane l = s.lane l := fun l => by unfold State.lane; rw [hl]
  have e4 : ∀ n, s2.circuit n = s.circuit n := fun n => by unfold State.circuit; rw [hc]
  have e5 : s2.startedBlocks = s.startedBlocks := by unfold State.startedBlocks; rw [hl]
  simp only [e1, e2, e3, e4, e5, hp, hn, hw, hr, hf, hs, hm, hh, hre] at h1 h2 h3 h4 h5 h6 h7 h8 h9 h10 h11 h12
  exact ⟨h1,h2,h3,h4,h5,h6,h7,h8,h9,h10,h11,h12⟩

/-- The line-down effects say nothing of the host link. -/
theorem LineDown.with_link {s v : State} {l : HostLink} (h : LineDown s v) : LineDown s { v with link := l } := by
  obtain ⟨h1,h2,h3,h4,h5,h6,h7,h8,h9,h10,h11,h12⟩ := h
  exact ⟨fun a x y => (station_with_link _ _ a).trans (h1 a x y),h2,h3,h4,h5,h6,h7,h8,h9,h10,h11,h12⟩

/-- The verdict of a cycle (R12). -/
theorem matches_iff (s : State) (m : Bool) (r : List (Nat × Octet)) : s.matches m r = true ↔ (m = true ∧ ∀ p ∈ r,
    s.line.driven[p.1]? = some p.2) := by
  simp [State.matches, List.all_eq_true]

end Sys2Proof.Machine
end

