-- ==== Sys2Proof/Laws/CycleStart.lean ====
section
/-! SUPPORT. The work of a RUNNING cycle start, block by block. -/

namespace Sys2Proof.Machine

/-- The cycle start of a RUNNING line, under each of its names. -/
theorem exec_runningStart {s : State} {c : Instr} (h1 : s.pin = .high) (h2 : s.line.cycleOpen = false) (h3 :
    s.line.state = .running)
    (hc : c = .cycleStart ∨ (∃ l, c = .gapEnd l ∧ l < 4 ∧ (s.lane l).engine = .gap ∧ 2 ≤ (s.lane l).gapCount) ∨ (c =
      .windowOverrun ∧ ∃ w, s.window.window = some w ∧ s.line.settings.windowLimit ≤ w.cyclesUsed)) :
    exec c s = event s.advance.runningStart := by
  have hcs : s.canStart = true := by simp [State.canStart, h1, h2, h3]
  have hcr : s.canStartRunning = true := by simp [State.canStartRunning, hcs, h3]
  rcases hc with rfl | ⟨l, rfl, hl, he, hg⟩ | ⟨rfl, w, hw, hl⟩
  · show execCycleStart s = _
    unfold execCycleStart; rw [if_pos hcs]; unfold State.startCycle; rw [if_neg (by simp [State.reachesRunning, h3]), if_pos h3]
  · show execGapEnd l s = _
    unfold execGapEnd; rw [if_pos]; simp [hcr, Config.lanes, hl, Lane.gapOver, he, hg]
  · show execWindowOverrun s = _
    unfold execWindowOverrun; rw [if_pos]; simp [hcr, State.windowOver, hw, hl]

/-- The slots an owner holds depend on the Slot Map alone. -/
theorem held_of_slots {s t : State} (h : s.slots = t.slots) (o d) : s.held o d = t.held o d := by
  unfold State.held State.mapEntry; rw [h]

/-- A circuit at a cycle start, by its state (R81). -/
theorem shift_eq_cases (c : Circuit) : c.shift = if c.state = .live then
    { c with outgoing := c.incoming, incoming := List.replicate c.up.length none, collects := true } else c.emptied :=
    rfl

/-- What a RUNNING cycle start does to the map, the circuits, the line engine and the lanes. -/
theorem runningStart_parts (s : State) :
    s.runningStart.slots = s.slots ∧ s.runningStart.mailboxes = s.mailboxes
    ∧ (∀ n, s.runningStart.circuit n = (s.circuit n).map Circuit.shift)
    ∧ s.runningStart.line = { s.line with
        cycleTotal := s.line.cycleTotal + 1
        sampleDown := owners s.slots.down, sampleUp := owners s.slots.up
        driven := headerOf s.windowTick.chooseCall.callContents.1 s.windowTick.chooseCall.callContents.2 (grantOctet (s.runningStart.window.window.map (·.owner))) }
    ∧ s.runningStart.lanes = s.lanes.mapIdx (fun i l => l.atCycleStart (s.held (.lane i) .down)) := by
  refine ⟨by simp, by simp, fun n => ?_, ?_, ?_⟩
  · have : s.runningStart.circuits = s.circuits.map (Option.map Circuit.shift) := by
      unfold State.runningStart State.openCycle State.startLanes State.shiftCircuits; simp
    unfold State.circuit; rw [this, List.getElem?_map]
    cases s.circuits[n]? with
    | none => rfl
    | some x => cases x <;> rfl
  · have hw : s.runningStart.window = s.windowTick.chooseCall.makeCall.grant.window := by
      unfold State.runningStart; simp
    rw [hw]
    unfold State.runningStart; dsimp only
    unfold State.openCycle; simp
  · have : s.runningStart.lanes = (s.windowTick.chooseCall.makeCall.grant.shiftCircuits.startLanes).lanes := by
      unfold State.runningStart; simp
    rw [this]; unfold State.startLanes
    have hs : s.windowTick.chooseCall.makeCall.grant.shiftCircuits.slots = s.slots := by simp
    have hl : s.windowTick.chooseCall.makeCall.grant.shiftCircuits.lanes = s.lanes := by simp
    simp only; rw [hl]; congr 1; funext i l; rw [held_of_slots hs]

/-- The entries depend on the Station Table alone. -/
theorem station_of_stations {s t : State} (h : s.poll.stations = t.poll.stations) (b : Nat) : s.station b = t.station
    b := by
  unfold State.station; rw [h]

/-- With no window open the window limit does nothing. -/
theorem windowTick_none {s : State} (h : s.window.window = none) : s.windowTick = s := by unfold State.windowTick; rw [h]

/-- Below the limit, one more cycle is used (R98). -/
theorem windowTick_tick {s : State} {w} (h : s.window.window = some w) (h2 : w.cyclesUsed <
    s.line.settings.windowLimit) :
    s.windowTick = { s with window := { s.window with window := some { w with cyclesUsed := w.cyclesUsed + 1 } } } :=
      by
  unfold State.windowTick; rw [h]; simp only; rw [if_neg (by omega)]

/-- At the limit the window ends OVERRUN (R98). -/
theorem windowTick_over {s : State} {w} (h : s.window.window = some w) (h2 : s.line.settings.windowLimit ≤
    w.cyclesUsed) :
    s.windowTick.window = { s.window with window := none } ∧ s.windowTick.rx = s.rx.discarded ∧ s.windowTick.free =
      s.free + s.rx.held
    ∧ s.windowTick.rep = s.rep.handOver (.rxFault { s.rxFault w .overrun with slotLost := none }) := by
  unfold State.windowTick; rw [h]; simp only; rw [if_pos h2]
  unfold State.endWindow; rw [h]; simp only [WindowEnd.fault, WindowEnd.byReceiver, Bool.false_eq_true, if_false]
  refine ⟨by simp, (discardPacket_spec (s.report _)).1, (discardPacket_spec (s.report _)).2, ?_⟩
  unfold State.discardPacket; split <;> rfl

/-- A call changes at most a busy run and an unacked count, to 0 (R52). -/
theorem makeCall_station (s : State) (b : Nat) : (s.makeCall.station b) = s.station b ∨ (s.makeCall.station b) =
    { s.station b with busyRun := 0, unackedPolls := 0 } := by
  unfold State.makeCall; dsimp only
  split
  · next a _ =>
    split
    · unfold State.callNote; dsimp only
      split
      · split
        · by_cases hb : b = a
          · subst hb
            by_cases hr : 1 ≤ b ∧ b - 1 < s.poll.stations.length
            · right
              refine (State.station_modStation_self _ b _ hr.1 (by have := hr.2; show b ≤ s.poll.stations.length; omega)).trans ?_
              congr 1
            · left
              cases b with
              | zero => rfl
              | succ n =>
                simp only [State.station, State.modStation]
                rw [List.modify_eq_self]; rfl
                simp only [not_and, Nat.add_sub_cancel] at hr
                have := hr (by omega)
                exact Nat.not_lt.mp this
          · left; exact (State.station_modStation_ne _ _ _ _ hb).trans (station_of_stations rfl b)
        · left; exact station_of_stations rfl b
      · left; exact station_of_stations rfl b
    · left; exact station_of_stations rfl b
  all_goals (left; exact station_of_stations rfl b)

/-- A call keeps the rest of every entry. -/
theorem makeCall_keeps (s : State) (b : Nat) : (s.makeCall.station b).lane = (s.station b).lane ∧ (s.makeCall.station
    b).windowsGranted = (s.station b).windowsGranted
    ∧ (s.makeCall.station b).state = (s.station b).state ∧ (s.makeCall.station b).noteToggle = (s.station
      b).noteToggle ∧ (s.makeCall.station b).abortPending = (s.station b).abortPending := by
  rcases makeCall_station s b with h | h <;> rw [h] <;> exact ⟨rfl, rfl, rfl, rfl, rfl⟩

/-- A call keeps the table's size. -/
theorem makeCall_len (s : State) : s.makeCall.poll.stations.length = s.poll.stations.length := by
  unfold State.makeCall; dsimp only
  repeat' split
  · unfold State.callNote; dsimp only; repeat' split
    · exact stations_length_modStation _ _ _
    · rfl
    · rfl
  all_goals rfl

/-- Which block's work gives each field of a RUNNING cycle start. -/
theorem runningStart_fields (s : State) :
    s.runningStart.window = s.windowTick.chooseCall.makeCall.grant.window ∧ s.runningStart.rx = s.windowTick.rx
    ∧ s.runningStart.free = s.windowTick.free ∧ s.runningStart.rep = s.windowTick.rep
    ∧ s.runningStart.poll = s.windowTick.chooseCall.makeCall.grant.poll ∧ s.runningStart.notes =
      s.windowTick.chooseCall.makeCall.notes := by
  unfold State.runningStart; dsimp only
  refine ⟨by simp, by simp, by simp, by simp, by simp, by simp⟩

/-- The first element that satisfies a test. -/
theorem find?_of_split {p : Nat → Bool} {q A B : List Nat} {a : Nat} (h : q = A ++ a :: B) (hA : ∀ b ∈ A, p b = false)
    (ha : p a = true) : q.find? p = some a := by
  subst h; rw [List.find?_append, List.find?_eq_none.mpr (by intro b hb; simp [hA b hb])]; simp [ha]

/-- Erasing the first occurrence. -/
theorem erase_of_split {q A B : List Nat} {a : Nat} (h : q = A ++ a :: B) (hA : a ∉ A) : q.erase a = A ++ B := by
  subst h; rw [List.erase_append_right _ hA]; simp

/-- What the grant does (R96). -/
theorem grant_spec (y s : State) (hl : y.poll.stations.length = 30) (hw : y.window.window = none) (hq : y.window =
    { s.window with window := none }) (hsl : y.slots = s.slots)
    (hlane : ∀ b, (y.station b).lane = (s.station b).lane) (hwg : ∀ b, (y.station b).windowsGranted = (s.station
      b).windowsGranted) :
    (∀ A a B, s.window.queue = A ++ a :: B → (∀ b ∈ A, s.held (.lane (s.station b).lane) .up = []) → s.held (.lane
      (s.station a).lane) .up ≠ [] →
        y.grant.window =
            { s.window with
              window := some
                { owner := a, lane := (s.station a).lane, upSet := s.held (.lane (s.station a).lane) .up, cyclesUsed := 1, packetStarted := false
                  idleRun := 0 }
              queue := A ++ B }
          ∧ (1 ≤ a → a ≤ 30 → (y.grant.station a).windowsGranted = min 65535 ((s.station a).windowsGranted + 1))
          ∧ ∀ b, b ≠ a → (y.grant.station b).windowsGranted = (s.station b).windowsGranted)
      ∧ ((∀ a ∈ s.window.queue, s.held (.lane (s.station a).lane) .up = []) → y.grant.window = { s.window with window := none }
          ∧ ∀ b, (y.grant.station b).windowsGranted = (s.station b).windowsGranted) := by
  have hy : y.window.queue = s.window.queue := by rw [hq]
  have hh : ∀ b, y.held (.lane (y.station b).lane) .up = s.held (.lane (s.station b).lane) .up := fun b => by rw [hlane, held_of_slots hsl]
  refine ⟨fun A a B h hA ha => ?_, fun h => ?_⟩
  · have hf : y.window.queue.find? (fun b => !(y.held (.lane (y.station b).lane) .up).isEmpty) = some a := by
      apply find?_of_split (hy.trans h)
      · intro b hb; rw [hh, hA b hb]; rfl
      · rw [hh]; cases hx : s.held (.lane (s.station a).lane) .up with
        | nil => exact absurd hx ha
        | cons => rfl
    have hna : a ∉ A := fun hm => ha (hA a hm)
    have e : y.grant = ({ y with window := { y.window with window := some { owner := a, lane := (y.station a).lane, upSet := y.held (.lane (y.station a).lane) .up, cyclesUsed := 1, packetStarted := false, idleRun := 0 }, queue := y.window.queue.erase a } } : State).modStation a fun t => { t with windowsGranted := sat16 t.windowsGranted } := by
      unfold State.grant; rw [hw]; simp only; rw [hf]
    refine ⟨?_, fun h1 h2 => ?_, fun b hb => ?_⟩
    · rw [e, State.modStation_window]; simp only [hh]
      rw [hy, erase_of_split h hna, hlane, hq]
    · rw [e, station_modStation _ _ _ _ (by exact hl), if_pos ⟨rfl, h1, h2⟩]
      have : State.station ({ y with window := { y.window with window := some { owner := a, lane := (y.station a).lane, upSet := y.held (.lane (y.station a).lane) .up, cyclesUsed := 1, packetStarted := false, idleRun := 0 }, queue := y.window.queue.erase a } } : State) a = y.station a := station_of_poll rfl a
      rw [this]; simp only [sat16, satAdd, hwg]
    · rw [e, State.station_modStation_ne _ _ _ _ hb, ← hwg]; exact congrArg _ (station_of_poll rfl b)
  · have hf : y.window.queue.find? (fun b => !(y.held (.lane (y.station b).lane) .up).isEmpty) = none := by
      rw [List.find?_eq_none]; intro b hb; rw [hy] at hb; rw [hh, h b hb]; simp
    have : y.grant = y := by unfold State.grant; rw [hw]; simp only; rw [hf]
    exact ⟨by rw [this, hq], fun b => by rw [this, hwg]⟩

/-- The circuits below k changed, with their reports in order, whatever the table's size. -/
theorem foldl_changeCircuitAt (p : Circuit → Bool) (new : CircuitState) (reason : CircuitReason) (s : State) (k : Nat)
    :
    let t : State := (List.range k).foldl (changeCircuitAt p new reason) s
    (∀ n, t.circuit n = if n < k then (s.circuit n).map fun c => if p c then { c.silence with state := new } else c
      else s.circuit n)
    ∧ t.circuits.length = s.circuits.length
    ∧ t.line = s.line
    ∧ t.rep = ((List.range k).filterMap fun n => (s.circuit n).bind fun c => if p c then some (Report.circuitState n
      c.source new c.state reason none s.now) else none).foldl ReportUnit.handOver s.rep := by
  induction k with
  | zero => intro t; exact ⟨fun n => by simp [t], rfl, rfl, rfl⟩
  | succ k ih =>
    intro t
    obtain ⟨h1, h2, h3, h4⟩ := ih
    set t' := (List.range k).foldl (changeCircuitAt p new reason) s with ht'
    have ht : t = (match t'.circuit k with
        | some c => if p c then t'.changeCircuit k c new reason none else t'
        | none => t') := by
      simp only [t, List.range_succ, List.foldl_append, List.foldl_cons, List.foldl_nil, ← ht']; rfl
    have hk' : t'.circuit k = s.circuit k := by rw [h1]; simp
    rw [hk'] at ht
    have hrep : ((List.range (k+1)).filterMap fun n => (s.circuit n).bind fun c => if p c then some (Report.circuitState n c.source new c.state reason none s.now) else none).foldl ReportUnit.handOver s.rep
       = (match (s.circuit k).bind fun c => if p c then some (Report.circuitState k c.source new c.state reason none s.now) else none with
          | some r => t'.rep.handOver r | none => t'.rep) := by
      rw [h4, List.range_succ, List.filterMap_append, List.foldl_append]
      simp only [List.filterMap_cons, List.filterMap_nil]
      cases (s.circuit k).bind fun c => if p c then some (Report.circuitState k c.source new c.state reason none s.now) else none <;> rfl
    cases hc : s.circuit k with
    | none =>
      rw [hc] at ht; simp only at ht
      rw [ht]
      refine ⟨fun n => ?_, h2, h3, ?_⟩
      · rw [h1]
        by_cases hn : n < k
        · rw [if_pos hn, if_pos (by omega)]
        · by_cases hnk : n = k
          · subst hnk; simp [hc]
          · rw [if_neg hn, if_neg (by omega)]
      · rw [hrep, hc]; rfl
    | some c =>
      have hlt : k < s.circuits.length := by
        by_contra hx; simp [State.circuit, List.getElem?_eq_none (Nat.le_of_not_lt hx)] at hc
      rw [hc] at ht; simp only at ht
      by_cases hp : p c
      · rw [if_pos hp] at ht
        rw [ht]
        refine ⟨fun n => ?_, ?_, ?_, ?_⟩
        · by_cases hnk : n = k
          · subst hnk
            rw [if_pos (by omega), hc]
            have : (t'.changeCircuit n c new reason none).circuit n = some { c.silence with state := new } := by
              have := State.circuit_setCircuit_self t' n (some { c.silence with state := new }) (by omega)
              exact this
            rw [this]; simp [hp]
          · have : (t'.changeCircuit k c new reason none).circuit n = t'.circuit n := State.circuit_setCircuit_ne t' k n _ hnk
            rw [this, h1]
            by_cases hn : n < k
            · rw [if_pos hn, if_pos (by omega)]
            · rw [if_neg hn, if_neg (by omega)]
        · simp [State.changeCircuit, State.report, State.setCircuit, h2]
        · simpa using h3
        · rw [hrep, hc]
          simp only [Option.bind_some, hp, if_true]
          simp [State.changeCircuit, State.report, State.setCircuit, State.now, h3]
      · rw [if_neg hp] at ht
        rw [ht]
        refine ⟨fun n => ?_, h2, h3, ?_⟩
        · rw [h1]
          by_cases hn : n < k
          · rw [if_pos hn, if_pos (by omega)]
          · by_cases hnk : n = k
            · subst hnk; simp [hc, hp]
            · rw [if_neg hn, if_neg (by omega)]
        · rw [hrep, hc]; simp [hp]

/-- What becoming RUNNING does to the circuits (R83). -/
theorem muteSourceless_spec (x : State) :
    (∀ n, n < 12 → x.muteSourceless.circuit n = (x.circuit n).map fun c => if (decide (c.state = .live) && !x.isOnline
      c.source) = true then { c.silence with state := .muted } else c)
    ∧ x.muteSourceless.rep = ((List.range 12).filterMap fun n => (x.circuit n).bind fun c => if (decide (c.state =
      .live) && !x.isOnline c.source) = true then some (Report.circuitState n c.source .muted c.state .sourceLeft none
      x.now) else none).foldl ReportUnit.handOver x.rep := by
  obtain ⟨q1, q2, q3, q4⟩ := foldl_changeCircuitAt (fun c => decide (c.state = .live) && !x.isOnline c.source) .muted .sourceLeft x 12
  have e : x.muteSourceless = (List.range 12).foldl (changeCircuitAt (fun c => decide (c.state = .live) && !x.isOnline c.source) .muted .sourceLeft) x := rfl
  rw [← e] at q1 q4
  exact ⟨fun n hn => by rw [q1, if_pos hn], q4⟩

/-- A circuit at the cycle start that reaches RUNNING. -/
theorem shift_of_muted (k : Circuit) (on : Bool) : (if (decide (k.state = .live) && !on) = true then
    { k.silence with state := .muted } else k).shift =
    if k.state = .live then
      if on = true then
        { k with outgoing := k.incoming, incoming := List.replicate k.up.length none, collects := true }
      else { k.emptied with state := .muted }
    else k.emptied := by
  by_cases hl : k.state = .live
  · cases on
    · rw [if_pos (by simp [hl]), if_pos hl, if_neg (by simp), shift_eq_cases, if_neg (by simp)]
      simp [Circuit.silence, Circuit.emptied, Circuit.noOctets]
    · rw [if_neg (by simp), if_pos hl, if_pos rfl, shift_eq_cases, if_pos hl]
  · rw [if_neg (by simp [hl]), if_neg hl, shift_eq_cases, if_neg hl]

/-- The addresses listed. -/
theorem mem_addresses (s : State) (p) (a : Nat) : a ∈ s.addresses p ↔ (1 ≤ a ∧ a ≤ 30) ∧ p (s.station a) = true := by
  unfold State.addresses; rw [List.mem_filter, List.mem_range'_1]; simp only [Config.stations]; constructor
  · rintro ⟨⟨h1, h2⟩, h3⟩; exact ⟨⟨h1, by omega⟩, h3⟩
  · rintro ⟨⟨h1, h2⟩, h3⟩; exact ⟨⟨h1, by omega⟩, h3⟩

/-- The addresses ascend. -/
theorem addresses_sorted (s : State) (p) : (s.addresses p).Pairwise (· < ·) := by
  unfold State.addresses; apply List.Pairwise.filter; exact List.pairwise_lt_range'

/-- The first match of an ascending list is the least. -/
theorem find?_of_sorted {l : List Nat} (hs : l.Pairwise (· < ·)) {p : Nat → Bool} {a} (h : l.find? p = some a) : ∀ b ∈
    l, p b = true → a ≤ b := by
  induction l with
  | nil => cases h
  | cons x l ih =>
    rw [List.pairwise_cons] at hs
    rw [List.find?_cons] at h
    intro b hb hp
    split at h
    · cases h
      rcases List.mem_cons.mp hb with rfl | hb
      · exact le_refl _
      · exact Nat.le_of_lt (hs.1 b hb)
    · next hx =>
      rcases List.mem_cons.mp hb with rfl | hb
      · rw [hp] at hx; cases hx
      · exact ih hs.2 h b hb hp

/-- The next address after a pointer (R23). -/
theorem nextAfter_spec (s : State) (pt : Nat) (P : Nat → Prop) (p : Station → Bool) (hp : ∀ a, p (s.station a) = true
    ↔ P a) :
    (∀ a, nextAfter pt (s.addresses p) = some a → NextAfter P pt a) ∧ (nextAfter pt (s.addresses p) = none ↔ ∀ a, 1 ≤
      a → a ≤ 30 → ¬P a) := by
  have hsort := addresses_sorted s p
  have hmem := mem_addresses s p
  generalize s.addresses p = l at *
  refine ⟨fun a h => ?_, ?_⟩
  · unfold nextAfter at h
    cases hf : l.find? fun a => decide (pt < a) with
    | some b =>
      rw [hf] at h; simp only [Option.some.injEq] at h; subst h
      have hm := (hmem b).mp (List.mem_of_find?_eq_some hf)
      refine ⟨hm.1, (hp b).mp hm.2, .inl ⟨by simpa using List.find?_some hf, fun c h1 h2 h3 h4 => ?_⟩⟩
      exact find?_of_sorted hsort hf c ((hmem c).mpr ⟨⟨h1, h2⟩, (hp c).mpr h3⟩) (by simpa using h4)
    | none =>
      rw [hf] at h; simp only at h
      have hnone := List.find?_eq_none.mp hf
      cases l with
      | nil => cases h
      | cons x l =>
        simp only [List.head?_cons, Option.some.injEq] at h; subst h
        have hm := (hmem x).mp List.mem_cons_self
        refine ⟨hm.1, (hp x).mp hm.2, .inr ⟨fun c h1 h2 h3 => ?_, fun c h1 h2 h3 => ?_⟩⟩
        · have := hnone c ((hmem c).mpr ⟨⟨h1, h2⟩, (hp c).mpr h3⟩); simpa using this
        · have hc := (hmem c).mpr ⟨⟨h1, h2⟩, (hp c).mpr h3⟩
          rcases List.mem_cons.mp hc with rfl | hc
          · exact le_refl _
          · exact Nat.le_of_lt ((List.pairwise_cons.mp hsort).1 c hc)
  · constructor
    · intro h c h1 h2 h3
      have hc := (hmem c).mpr ⟨⟨h1, h2⟩, (hp c).mpr h3⟩
      unfold nextAfter at h
      split at h
      · cases h
      · cases l with
        | nil => cases hc
        | cons => cases h
    · intro h
      have : l = [] := by
        apply List.eq_nil_iff_forall_not_mem.mpr; intro c hc
        have := (hmem c).mp hc; exact h c this.1.1 this.1.2 ((hp c).mp this.2)
      subst this; rfl

/-- What choosing the call does (R24). -/
theorem chooseCall_spec (y : State) :
    let free := fun a => (y.station a).state = .free
    let ring := fun a => (y.station a).state ≠ .free ∧ (y.station a).state ≠ .barred
    let probes := y.line.settings.probeInterval ≠ 0 ∧ y.line.cycleCounter.toNat % y.line.settings.probeInterval = 0
    let u := y.chooseCall
    (probes → (∃ a, 1 ≤ a ∧ a ≤ 30 ∧ free a) →
            ∃ a, NextAfter free y.poll.probePointer a ∧ u.poll.call = .probe a ∧ u.poll.probePointer = a
              ∧ u.poll.pollPointer = y.poll.pollPointer)
         ∧ (¬(probes ∧ ∃ a, 1 ≤ a ∧ a ≤ 30 ∧ free a) → (∃ a, 1 ≤ a ∧ a ≤ 30 ∧ ring a) →
            ∃ a, NextAfter ring y.poll.pollPointer a ∧ u.poll.call = .ring a ∧ u.poll.pollPointer = a
              ∧ u.poll.probePointer = y.poll.probePointer)
         ∧ (¬(probes ∧ ∃ a, 1 ≤ a ∧ a ≤ 30 ∧ free a) → (∀ a, 1 ≤ a → a ≤ 30 → ¬ring a) →
            u.poll.call = .none ∧ u.poll.pollPointer = y.poll.pollPointer
              ∧ u.poll.probePointer = y.poll.probePointer) := by
  intro free ring probes u
  obtain ⟨F1, F2⟩ := nextAfter_spec y y.poll.probePointer free (fun t => decide (t.state = .free)) (by intro a; simp [free])
  obtain ⟨R1, R2⟩ := nextAfter_spec y y.poll.pollPointer ring (fun t => t.state.inRing) (by intro a; rw [inRing_iff])
  change (∀ a, y.nextFree = some a → _) at F1
  change y.nextFree = none ↔ _ at F2
  change (∀ a, y.nextRing = some a → _) at R1
  change y.nextRing = none ↔ _ at R2
  have hpc : y.probeCycle = true ↔ probes := ⟨fun h => of_decide_eq_true h, fun h => decide_eq_true h⟩
  have eP : ∀ a, y.probeCycle = true → y.nextFree = some a → u = { y with poll := { y.poll with probePointer := a, call := .probe a } } := by
    intro a h1 h2; simp only [u]; unfold State.chooseCall; dsimp only; rw [if_pos h1, h2]
  have eR : ¬(y.probeCycle = true ∧ ∃ a, y.nextFree = some a) → u = match y.nextRing with
      | some a => { y with poll := { y.poll with pollPointer := a, call := .ring a } }
      | none => { y with poll := { y.poll with call := .none } } := by
    intro h; simp only [u]; unfold State.chooseCall; dsimp only
    by_cases h1 : y.probeCycle = true
    · rw [if_pos h1]
      cases hf : y.nextFree with
      | none => rfl
      | some a => exact absurd ⟨h1, a, hf⟩ h
    · refine (if_neg h1).trans ?_
      cases y.nextRing <;> rfl
  have hex : (∃ a, y.nextFree = some a) ↔ ∃ a, 1 ≤ a ∧ a ≤ 30 ∧ free a := by
    constructor
    · rintro ⟨a, ha⟩; have := F1 a ha; exact ⟨a, this.1.1, this.1.2, this.2.1⟩
    · rintro ⟨a, h1, h2, h3⟩
      cases hf : y.nextFree with
      | none => exact absurd h3 (F2.mp hf a h1 h2)
      | some b => exact ⟨b, rfl⟩
  refine ⟨fun hp ha => ?_, fun hn ha => ?_, fun hn ha => ?_⟩
  · obtain ⟨a, hf⟩ := hex.mpr ha
    refine ⟨a, F1 a hf, ?_⟩
    rw [eP a (hpc.mpr hp) hf]; exact ⟨rfl, rfl, rfl⟩
  · have e := eR (by rw [hpc, hex]; exact hn)
    cases hf : y.nextRing with
    | none => obtain ⟨a, h1, h2, h3⟩ := ha; exact absurd h3 (R2.mp hf a h1 h2)
    | some a =>
      refine ⟨a, R1 a hf, ?_⟩
      rw [e, hf]; exact ⟨rfl, rfl, rfl⟩
  · have e := eR (by rw [hpc, hex]; exact hn)
    rw [R2.mpr ha] at e
    rw [e]; exact ⟨rfl, rfl, rfl⟩

/-- The octets of a cycle at its start. -/
theorem headerOf_eq (a b c : Octet) : headerOf a b c = [a, b, 0xFF#8, 0xFF#8, c] ++ List.replicate 43 0xFF#8 := rfl

/-- The grant keeps what a call reads of every entry. -/
theorem grant_keeps_stations (y : State) (b : Nat) : (y.grant.station b).state = (y.station b).state ∧
    (y.grant.station b).noteToggle = (y.station b).noteToggle
   ∧ (y.grant.station b).abortPending = (y.station b).abortPending ∧ (y.grant.station b).lane = (y.station b).lane
   ∧ (y.grant.station b).busyRun = (y.station b).busyRun ∧ (y.grant.station b).unackedPolls = (y.station
     b).unackedPolls := by
  unfold State.grant
  split
  · exact ⟨rfl, rfl, rfl, rfl, rfl, rfl⟩
  · split
    · exact ⟨rfl, rfl, rfl, rfl, rfl, rfl⟩
    · next a _ =>
      dsimp only
      by_cases hb : b = a
      · subst hb
        cases b with
        | zero => exact ⟨rfl, rfl, rfl, rfl, rfl, rfl⟩
        | succ n =>
          simp only [State.station, State.modStation]
          rw [List.getElem?_modify]; simp only [if_true]
          cases y.poll.stations[n]? <;> exact ⟨rfl, rfl, rfl, rfl, rfl, rfl⟩
      · rw [State.station_modStation_ne _ _ _ _ hb, station_of_stations (t := y) rfl]
        exact ⟨rfl, rfl, rfl, rfl, rfl, rfl⟩

/-- The call of a station with no note. -/
theorem noteCall_none (s : State) (a : Nat) (h1 : (s.station a).abortPending = false) (h2 : ∀ n ∈ s.notes.store,
    n.station ≠ a) :
    s.noteCall a = { mark := .none, toggle := (s.station a).noteToggle, octet := idleOctet, note := none } := by
  unfold State.noteCall; dsimp only; rw [if_neg (by rw [h1]; simp)]
  have : s.notesOf a = [] := by
    unfold State.notesOf; rw [List.filter_eq_nil_iff]; intro n hn; simpa using h2 n hn
  rw [this]

/-- The call of a station's oldest note. -/
theorem noteCall_head (s : State) (a : Nat) (A : List Note) (n : Note) (B : List Note) (h1 : (s.station
    a).abortPending = false)
    (h2 : s.notes.store = A ++ n :: B) (h3 : n.station = a) (h4 : ∀ m ∈ A, m.station ≠ a) :
    s.noteCall a =
      { mark := if n.nextIndex + 1 < n.octets.length then .more else .endMark, toggle := !(s.station a).noteToggle, octet := (n.octets[n.nextIndex]?).getD idleOctet, note := some (n.handle, n.nextIndex) }
      := by
  unfold State.noteCall; dsimp only; rw [if_neg (by rw [h1]; simp)]
  have : s.notesOf a = n :: B.filter (fun n => n.station == a) := by
    unfold State.notesOf; rw [h2, List.filter_append, List.filter_eq_nil_iff.mpr, List.nil_append, List.filter_cons, if_pos (by simpa using h3)]
    intro m hm; simpa using h4 m hm
  rw [this]

/-- A ring poll of an ONLINE station calls a note. -/
theorem makeCall_online {y : State} {a : Nat} (h : y.poll.call = .ring a) (ho : y.isOnline a = true) : y.makeCall =
    y.callNote a := by
  unfold State.makeCall; rw [h]; simp only; rw [if_pos ho]

/-- Any other call leaves no call-out record. -/
theorem makeCall_otherwise {y : State} (h : ∀ a, y.poll.call = .ring a → y.isOnline a = false) : y.makeCall =
    { y with notes := { y.notes with callOut := none } } := by
  unfold State.makeCall
  cases hc : y.poll.call with
  | none => rfl
  | probe a => rfl
  | ring a => simp only; rw [if_neg (by rw [h a hc]; simp)]

/-- A call that names no note. -/
theorem callNote_without_note {y : State} {a : Nat} {c : NoteCall} (h : y.noteCall a = c) (hn : c.note = none) :
    y.callNote a =
      { y with notes := { y.notes with callOut := some { station := a, mark := c.mark, toggle := c.toggle, note := none } } }
      := by
  unfold State.callNote; dsimp only; rw [h, hn]; rfl

/-- A call that names a note: a QUEUED one becomes IN_FLIGHT. -/
theorem callNote_with_note {y : State} {a : Nat} {c : NoteCall} {n : Note} {i : Nat} (h : y.noteCall a = c) (hn :
    c.note = some (n.handle, i)) (hf : y.note? n.handle = some n) :
    y.callNote a = (if n.state = .queued then
      (({ y with notes := { y.notes with callOut := some { station := a, mark := c.mark, toggle := c.toggle, note := some (n.handle, i) } } }
        : State).modNote n.handle fun m => { m with state := .inFlight }).modStation a fun t =>
        { t with busyRun := 0, unackedPolls := 0 }
      else
        { y with notes := { y.notes with callOut := some { station := a, mark := c.mark, toggle := c.toggle, note := some (n.handle, i) } } })
        := by
  unfold State.callNote; dsimp only; rw [h, hn]; simp only [Option.bind_some, hf]

/-- R96: a grant changes one counter of a station entry. -/
theorem station_grant (y : State) (b : Nat) : y.grant.station b =
    { y.station b with windowsGranted := (y.grant.station b).windowsGranted } := by
  unfold State.grant
  split
  · rfl
  · split
    · rfl
    · next a _ =>
      dsimp only
      by_cases hb : b = a
      · subst hb
        cases b with
        | zero => rfl
        | succ n =>
          simp only [State.station, State.modStation]
          rw [List.getElem?_modify]; simp only [if_true]
          cases y.poll.stations[n]? <;> rfl
      · rw [State.station_modStation_ne _ _ _ _ hb]; rfl

/-- R52: a call that starts no QUEUED note leaves the station entry as it is. -/
theorem station_makeCall_quiet (y : State) (b : Nat) (hnd : (y.notes.store.map (·.handle)).Nodup)
    (h : y.poll.call = .ring b → (y.station b).state ≠ .online ∨ (y.station b).abortPending = true ∨ ∀ n ∈
      y.notes.store, n.station = b → n.state ≠ .queued) :
    y.makeCall.station b = y.station b := by
  by_cases hr : ∃ a, y.poll.call = .ring a ∧ y.isOnline a = true
  · obtain ⟨a, hc, ho⟩ := hr
    rw [makeCall_online hc ho]
    by_cases hab : a = b
    · subst hab
      have hon : (y.station a).state = .online := by simpa [State.isOnline] using ho
      have hk : ∀ m, (y.noteCall a).note = some m → ∃ n ∈ y.notes.store, n.station = a ∧ m = (n.handle, n.nextIndex) ∧ (y.station a).abortPending = false := by
        intro m hm
        by_cases hx : (y.station a).abortPending = true
        · unfold State.noteCall at hm; dsimp only at hm; rw [if_pos hx] at hm; cases hm
        · unfold State.noteCall at hm; dsimp only at hm; rw [if_neg hx] at hm
          cases hn : y.notesOf a with
          | nil => rw [hn] at hm; cases hm
          | cons n l =>
            rw [hn] at hm; cases hm
            have : n ∈ y.notesOf a := by rw [hn]; exact List.mem_cons_self
            unfold State.notesOf at this; rw [List.mem_filter] at this
            exact ⟨n, this.1, by simpa using this.2, rfl, by simpa using hx⟩
      cases hn : (y.noteCall a).note with
      | none => rw [callNote_without_note rfl hn]; exact station_of_poll rfl a
      | some m =>
        obtain ⟨n, hmem, hst, rfl, hab⟩ := hk m hn
        obtain ⟨A, B, hsp⟩ := List.append_of_mem hmem
        have hAB : ∀ m ∈ A ++ B, m.handle ≠ n.handle := by
          rw [hsp, List.map_append, List.map_cons] at hnd
          intro m hm he
          rcases List.mem_append.mp hm with hm | hm
          · exact (List.nodup_append.mp hnd).2.2 _ (List.mem_map_of_mem hm) _ List.mem_cons_self he
          · exact (List.nodup_cons.mp (List.nodup_append.mp hnd).2.1).1 (he ▸ List.mem_map_of_mem hm)
        have hf := note?_of_split (x := y) hsp hAB
        rw [callNote_with_note rfl hn hf]
        rcases h hc with h | h | h
        · exact absurd hon h
        · rw [hab] at h; cases h
        · rw [if_neg (h n hmem hst)]; exact station_of_poll rfl a
    · unfold State.callNote; dsimp only
      split
      · split
        · rw [State.station_modStation_ne _ _ _ _ (Ne.symm hab)]; exact station_of_poll rfl b
        · exact station_of_poll rfl b
      · exact station_of_poll rfl b
  · rw [makeCall_otherwise]
    · exact station_of_poll rfl b
    · intro a hc; by_contra hx; exact hr ⟨a, hc, by simpa using hx⟩

end Sys2Proof.Machine
end

