-- ==== Sys2Proof/Laws/Claims.lean ====
section
/-! SUPPORT. What freeing and claiming slots does to the Slot Map and the Reclaim List, and what every owner is told of it. -/

namespace Sys2Proof.Machine

/-- The entry that wins is the one chosen (R72). -/
theorem bestEntry_of_wins {l : List ReclaimEntry} {e} (h : Wins l e) : bestEntry l = some e := by
  obtain ⟨A, B, rfl, hA, hB⟩ := h
  have hb : ∀ (B : List ReclaimEntry) b, bestEntry B = some b → b ∈ B := by
    intro B; induction B with
    | nil => intro b h; cases h
    | cons x B ih =>
      intro b h; unfold bestEntry at h
      cases hx : bestEntry B with
      | none => rw [hx] at h; simp at h; simp [h]
      | some y =>
        rw [hx] at h; simp only at h
        split at h
        · cases h; exact List.mem_cons_of_mem _ (ih _ hx)
        · cases h; exact List.mem_cons_self
  induction A with
  | nil =>
    rw [List.nil_append]; unfold bestEntry
    cases hx : bestEntry B with
    | none => rfl
    | some b => simp only; rw [if_neg]; have := hB b (hb _ _ hx); omega
  | cons x A ih =>
    rw [List.cons_append]; unfold bestEntry
    rw [ih (fun y hy => hA y (List.mem_cons_of_mem _ hy))]; simp only
    rw [if_pos (hA x List.mem_cons_self)]

/-- The entry chosen is one of the list. -/
theorem bestEntry_mem {l : List ReclaimEntry} {e} (h : bestEntry l = some e) : e ∈ l := by
  induction l generalizing e with
  | nil => cases h
  | cons x B ih =>
    unfold bestEntry at h
    cases hx : bestEntry B with
    | none => rw [hx] at h; simp at h; simp [h]
    | some y =>
      rw [hx] at h; simp only at h
      split at h
      · cases h; exact List.mem_cons_of_mem _ (ih hx)
      · cases h; exact List.mem_cons_self

/-- None is chosen from an empty list only. -/
theorem bestEntry_none {l : List ReclaimEntry} (h : bestEntry l = none) : l = [] := by
  cases l with
  | nil => rfl
  | cons x B =>
    unfold bestEntry at h
    split at h
    · split at h <;> cases h
    · cases h

/-- The entries that wait for a slot, oldest first. -/
def State.waitingAt (s : State) (r : SlotRef) : List ReclaimEntry := s.slots.reclaim.filter fun e => decide (e.dir =
    r.1 ∧ e.slot = r.2)

/-- Telling an owner of a regained slot leaves the map. -/
theorem tellRegained_keeps_slots (s : State) (e o) : (s.tellRegained e o).slots = s.slots := by simp

/-- The map entries depend on the Slot Map unit alone. -/
theorem mapEntry_of_slots {s t : State} (h : s.slots = t.slots) (d x) : s.mapEntry d x = t.mapEntry d x := by unfold State.mapEntry; rw [h]

/-- What freeing a slot does to the map and the Reclaim List (R70, R72). -/
theorem freeSlot_spec (s : State) (hs : s.slots.down.length = 43 ∧ s.slots.up.length = 43) (o : Owner) (r : SlotRef)
    (hr : 5 ≤ r.2 ∧ r.2 ≤ 47) :
    (s.freeSlot o r).mapEntry r.1 r.2 = (bestEntry (State.waitingAt s r)).map (fun e =>
      { owner := e.owner, prec := e.prec })
    ∧ (∀ d x, (d, x) ≠ r → (s.freeSlot o r).mapEntry d x = s.mapEntry d x)
    ∧ (∀ r', r' ≠ r → State.waitingAt (s.freeSlot o r) r' = State.waitingAt s r')
    ∧ (s.freeSlot o r).slots.reclaim = (match bestEntry (State.waitingAt s r) with | none => s.slots.reclaim | some e => s.slots.reclaim.erase e)
    ∧ ((s.freeSlot o r).slots.down.length = 43 ∧ (s.freeSlot o r).slots.up.length = 43) := by
  have hself : ∀ (e : Option MapEntry), (s.setEntry r.1 r.2 e).mapEntry r.1 r.2 = e := by
    intro e; apply State.mapEntry_setEntry_self _ _ _ _ hr.1
    cases r.1 <;> simp only [SlotUnit.side, Config.firstPayload] <;> omega
  have hne : ∀ (e : Option MapEntry) d x, (d, x) ≠ r → (s.setEntry r.1 r.2 e).mapEntry d x = s.mapEntry d x := by
    intro e d x h; apply State.mapEntry_setEntry_ne
    by_cases hd : d = r.1
    · right; intro hx; exact h (by rw [hd, hx])
    · left; exact hd
  have hlen : ∀ e : Option MapEntry, (s.setEntry r.1 r.2 e).slots.down.length = 43 ∧ (s.setEntry r.1 r.2 e).slots.up.length = 43 := by
    intro e; unfold State.setEntry setSlot; cases r.1 <;> simp only <;> split <;> simp [hs]
  have hrec : ∀ e : Option MapEntry, (s.setEntry r.1 r.2 e).slots.reclaim = s.slots.reclaim := fun e => by simp
  unfold State.freeSlot
  change _ ∧ _
  rw [show (s.slots.reclaim.filter fun e => decide (e.dir = r.1 ∧ e.slot = r.2)) = State.waitingAt s r from rfl]
  cases hb : bestEntry (State.waitingAt s r) with
  | none =>
    simp only
    exact ⟨hself _, hne _, fun r' _ => by unfold State.waitingAt; rw [hrec], hrec _, hlen _⟩
  | some e =>
    simp only
    have hm := bestEntry_mem hb
    have hm2 := List.mem_filter.mp hm
    have he : e.dir = r.1 ∧ e.slot = r.2 := by simpa using hm2.2
    refine ⟨?_, fun d x h => ?_, fun r' h => ?_, ?_, ?_⟩
    · rw [mapEntry_of_slots (tellRegained_keeps_slots _ _ _)]; exact hself _
    · rw [mapEntry_of_slots (tellRegained_keeps_slots _ _ _)]; exact hne _ d x h
    · unfold State.waitingAt; rw [tellRegained_keeps_slots]; simp only; rw [hrec]
      have : (s.slots.reclaim.erase e).filter (fun e => decide (e.dir = r'.1 ∧ e.slot = r'.2)) = s.slots.reclaim.filter (fun e => decide (e.dir = r'.1 ∧ e.slot = r'.2)) := by
        have hfe : (fun e : ReclaimEntry => decide (e.dir = r'.1 ∧ e.slot = r'.2)) e = false := by
          simp only [decide_eq_false_iff_not]; rintro ⟨a, b⟩; apply h; exact Prod.ext (a.symm.trans he.1) (b.symm.trans he.2)
        generalize s.slots.reclaim = l
        induction l with
        | nil => rfl
        | cons y l ih =>
          by_cases hy : y = e
          · subst hy; rw [List.erase_cons_head, List.filter_cons, if_neg (by simp [hfe])]
          · rw [List.erase_cons_tail (by simpa using hy), List.filter_cons, List.filter_cons, ih]
      exact this
    · rw [tellRegained_keeps_slots]; simp
    · rw [tellRegained_keeps_slots]; exact hlen _

/-- What freeing several slots does to the map and the Reclaim List (R70, R72). -/
theorem freeSlots_spec (o : Owner) (rs : List SlotRef) (hnd : rs.Nodup) (hin : ∀ r ∈ rs, 5 ≤ r.2 ∧ r.2 ≤ 47) (s :
    State) (hs : s.slots.down.length = 43 ∧ s.slots.up.length = 43) :
    (∀ d x, (d, x) ∉ rs ∨ ¬(∃ e, s.mapEntry d x = some e ∧ e.owner = o) → (s.freeSlots o rs).mapEntry d x = s.mapEntry
      d x)
    ∧ (∀ d x, (d, x) ∈ rs → (∃ e, s.mapEntry d x = some e ∧ e.owner = o) → (s.freeSlots o rs).mapEntry d x =
      (bestEntry (State.waitingAt s (d, x))).map (fun e => { owner := e.owner, prec := e.prec }))
    ∧ (∀ e ∈ (s.freeSlots o rs).slots.reclaim, e ∈ s.slots.reclaim)
    ∧ (∀ e ∈ s.slots.reclaim, e ∉ (s.freeSlots o rs).slots.reclaim → (s.freeSlots o rs).mapEntry e.dir e.slot = some
      { owner := e.owner, prec := e.prec })
    ∧ ((s.freeSlots o rs).slots.down.length = 43 ∧ (s.freeSlots o rs).slots.up.length = 43) := by
  induction rs generalizing s with
  | nil => exact ⟨fun _ _ _ => rfl, fun _ _ h _ => (by cases h), fun _ h => h, fun e h h2 => absurd h h2, hs⟩
  | cons r rs ih =>
    rw [List.nodup_cons] at hnd
    have hr := hin r List.mem_cons_self
    have e : s.freeSlots o (r :: rs) = (if ((s.mapEntry r.1 r.2).any fun e => decide (e.owner = o)) = true then s.freeSlot o r else s).freeSlots o rs := rfl
    have hany : ((s.mapEntry r.1 r.2).any fun e => decide (e.owner = o)) = true ↔ ∃ e, s.mapEntry r.1 r.2 = some e ∧ e.owner = o := by
      cases s.mapEntry r.1 r.2 <;> simp
    by_cases hc : ((s.mapEntry r.1 r.2).any fun e => decide (e.owner = o)) = true
    · rw [if_pos hc] at e
      rw [hany] at hc
      obtain ⟨a1, a2, a3, a4, a5⟩ := freeSlot_spec s hs o r hr
      obtain ⟨b1, b2, b3, b4, b5⟩ := ih hnd.2 (fun x hx => hin x (List.mem_cons_of_mem _ hx)) (s.freeSlot o r) a5
      rw [e]
      have hsub : ∀ e ∈ (s.freeSlot o r).slots.reclaim, e ∈ s.slots.reclaim := by
        intro e he; rw [a4] at he; split at he
        · exact he
        · exact List.mem_of_mem_erase he
      refine ⟨fun d x h => ?_, fun d x hm hx => ?_, fun e he => hsub e (b3 e he), fun e he hne => ?_, b5⟩
      · have hn : (d, x) ≠ r := by
          rintro rfl; rcases h with h | h
          · exact h List.mem_cons_self
          · exact h hc
        rw [b1 d x, a2 d x hn]
        rw [a2 d x hn]; rcases h with h | h
        · exact .inl fun hm => h (List.mem_cons_of_mem _ hm)
        · exact .inr h
      · by_cases hn : (d, x) = r
        · subst hn; rw [b1 d x (.inl hnd.1)]; exact a1
        · have hm' : (d, x) ∈ rs := by
            rcases List.mem_cons.mp hm with h | h
            · exact absurd h hn
            · exact h
          rw [b2 d x hm' (by rw [a2 d x hn]; exact hx), a3 _ hn]
      · by_cases hin2 : e ∈ (s.freeSlot o r).slots.reclaim
        · exact b4 e hin2 hne
        · rw [a4] at hin2
          cases hb : bestEntry (State.waitingAt s r) with
          | none => rw [hb] at hin2; exact absurd he hin2
          | some b =>
            rw [hb] at hin2; simp only at hin2
            have hbe : b = e := by
              by_contra hbe
              exact hin2 ((List.mem_erase_of_ne (fun h => hbe h.symm)).mpr he)
            subst hbe
            have hm := List.mem_filter.mp (bestEntry_mem hb)
            have hd : b.dir = r.1 ∧ b.slot = r.2 := by simpa using hm.2
            rw [hd.1, hd.2, b1 r.1 r.2 (.inl hnd.1), a1, hb]; rfl
    · rw [if_neg hc] at e
      obtain ⟨b1, b2, b3, b4, b5⟩ := ih hnd.2 (fun x hx => hin x (List.mem_cons_of_mem _ hx)) s hs
      rw [e]; rw [hany] at hc
      refine ⟨fun d x h => ?_, fun d x hm hx => ?_, b3, b4, b5⟩
      · apply b1; rcases h with h | h
        · exact .inl fun hm => h (List.mem_cons_of_mem _ hm)
        · exact .inr h
      · apply b2 d x _ hx
        rcases List.mem_cons.mp hm with h | h
        · subst h; exact absurd hx hc
        · exact h

/-- The slots listed, in slot order. -/
theorem mem_ascending (l : List Nat) (x : Nat) : x ∈ ascending l ↔ (5 ≤ x ∧ x ≤ 47) ∧ x ∈ l := by
  unfold ascending; rw [List.mem_filter, List.mem_range'_1]; simp only [Config.firstPayload, Config.payloadSlots, decide_eq_true_eq]
  constructor <;> rintro ⟨⟨a, b⟩, c⟩ <;> exact ⟨⟨a, by omega⟩, c⟩

/-- The slots of a claim. -/
theorem mem_claimSlots (down up : List Nat) (d : Dir) (x : Nat) : (d, x) ∈ claimSlots down up ↔ (5 ≤ x ∧ x ≤ 47) ∧ x ∈ (match d with | .down => down | .up => up) := by
  unfold claimSlots; rw [List.mem_append]
  cases d <;> simp [mem_ascending]

/-- Slot order ascends. -/
theorem ascending_sorted (l : List Nat) : (ascending l).Pairwise (· < ·) := by
  unfold ascending; apply List.Pairwise.filter; exact List.pairwise_lt_range'

/-- A claim names each slot once. -/
theorem nodup_claimSlots (down up : List Nat) : (claimSlots down up).Nodup := by
  have n : ∀ l, (ascending l).Nodup := fun l => (ascending_sorted l).imp (fun h => Nat.ne_of_lt h)
  unfold claimSlots; rw [List.nodup_append]
  refine ⟨(n _).map (fun a b h => by simpa using h), (n _).map (fun a b h => by simpa using h), ?_⟩
  rintro ⟨d, x⟩ h ⟨d', x'⟩ h' heq
  simp at h h'; cases heq; rw [← h.2] at h'; cases h'.2

/-- A claim names payload slots. -/
theorem in_claimSlots (down up : List Nat) : ∀ r ∈ claimSlots down up, 5 ≤ r.2 ∧ r.2 ≤ 47 := fun r h =>
    ((mem_claimSlots down up r.1 r.2).mp h).1

/-- A regained slot keeps the Circuit Table's size. -/
theorem circuitSlotRegained_circuits_length (s : State) (e o) : (s.tellRegained e o).circuits.length =
    s.circuits.length := by
  unfold State.tellRegained; split
  · rfl
  · unfold State.circuitSlotRegained; split
    · split
      · simp [State.changeCircuit, State.report, State.setCircuit]
      · rfl
    · rfl

/-- Freeing a slot keeps the Circuit Table's size. -/
theorem freeSlot_circuits_length (s : State) (o r) : (s.freeSlot o r).circuits.length = s.circuits.length := by
  unfold State.freeSlot; split
  · simp
  · rw [circuitSlotRegained_circuits_length]; simp

/-- Freeing slots keeps the Circuit Table's size. -/
theorem freeSlots_circuits_length (rs : List SlotRef) (s : State) (o) : (s.freeSlots o rs).circuits.length =
    s.circuits.length := by
  induction rs generalizing s with
  | nil => rfl
  | cons r rs ih =>
    have e : s.freeSlots o (r :: rs) = (if ((s.mapEntry r.1 r.2).any fun e => decide (e.owner = o)) = true then s.freeSlot o r else s).freeSlots o rs := rfl
    rw [e, ih]; split
    · exact freeSlot_circuits_length _ _ _
    · rfl

/-- Freeing a slot leaves a circuit that is not DISPLACED. -/
theorem freeSlot_keeps_circuit (s : State) (o r) (n : Nat) (c : Circuit) (hc : s.circuit n = some c) (hd : c.state ≠
    .displaced) : (s.freeSlot o r).circuit n = some c := by
  unfold State.freeSlot; split
  · rw [show (s.setEntry r.1 r.2 none).circuit n = s.circuit n from by unfold State.circuit; simp]; exact hc
  · next e _ =>
    dsimp only
    unfold State.tellRegained; split
    · show (State.circuit _ n) = _; rw [← hc]; unfold State.circuit; simp
    · next m _ =>
      unfold State.circuitSlotRegained
      have hcm : ∀ k, State.circuit ({ (s.setEntry r.1 r.2 (some { owner := e.owner, prec := e.prec })) with slots := { (s.setEntry r.1 r.2 (some { owner := e.owner, prec := e.prec })).slots with reclaim := (s.setEntry r.1 r.2 (some { owner := e.owner, prec := e.prec })).slots.reclaim.erase e } } : State) k = s.circuit k := by
        intro k; unfold State.circuit; simp
      split
      · next c' hc' =>
        rw [hcm] at hc'
        split
        · next hcond =>
          have hne : n ≠ m := by rintro rfl; rw [hc] at hc'; cases hc'; exact hd hcond.1
          refine (State.circuit_setCircuit_ne _ m n _ hne).trans ?_
          rw [hcm]; exact hc
        · rw [hcm]; exact hc
      · rw [hcm]; exact hc

/-- Freeing slots leaves a circuit that is not DISPLACED. -/
theorem freeSlots_keeps_circuit (rs : List SlotRef) (s : State) (o) (n : Nat) (c : Circuit) (hc : s.circuit n = some
    c) (hd : c.state ≠ .displaced) : (s.freeSlots o rs).circuit n = some c := by
  induction rs generalizing s with
  | nil => exact hc
  | cons r rs ih =>
    have e : s.freeSlots o (r :: rs) = (if ((s.mapEntry r.1 r.2).any fun e => decide (e.owner = o)) = true then s.freeSlot o r else s).freeSlots o rs := rfl
    rw [e]; apply ih; split
    · exact freeSlot_keeps_circuit _ _ _ _ _ hc hd
    · exact hc

/-- What stands at a slot stands at one of the slots that the list has. -/
theorem atSlot_range {α} {l : List (Option α)} {x : Nat} {e : α} (h : atSlot l x = some e) : 5 ≤ x ∧ x < 5 + l.length
    := by
  unfold atSlot at h; simp only [Config.firstPayload] at h
  split at h
  · next hx =>
    refine ⟨hx, ?_⟩
    by_contra hc
    rw [List.getElem?_eq_none (by omega)] at h; cases h
  · cases h

/-- Only payload slots have map entries. -/
theorem mapEntry_range {s : State} (hs : s.slots.down.length = 43 ∧ s.slots.up.length = 43) {d x e} (h : s.mapEntry d
    x = some e) : 5 ≤ x ∧ x ≤ 47 := by
  have := atSlot_range h
  cases d <;> simp only [SlotUnit.side] at this <;> omega

/-- The slots the map gives to an owner. -/
theorem mem_held_iff_owns {s : State} (hs : s.slots.down.length = 43 ∧ s.slots.up.length = 43) (o : Owner) (d x) : x ∈
    s.held o d ↔ s.owns o d x := by
  unfold State.held State.owns; rw [List.mem_filter, List.mem_range'_1]; simp only [Config.firstPayload, Config.payloadSlots]
  have : ((s.mapEntry d x).any fun e => decide (e.owner = o)) = true ↔ ∃ e, s.mapEntry d x = some e ∧ e.owner = o := by
    cases s.mapEntry d x <;> simp
  rw [this]
  exact ⟨fun h => h.2, fun h => ⟨by obtain ⟨e, h1, -⟩ := h; have := mapEntry_range hs h1; omega, h⟩⟩

/-- A circuit is whole when it owns every slot of both lists (R82). -/
theorem whole_iff {s : State} (hs : s.slots.down.length = 43 ∧ s.slots.up.length = 43) (n : Nat) (c : Circuit) :
    s.whole n c = true ↔ s.ownsAll n c := by
  unfold State.whole State.ownsAll
  simp only [Bool.and_eq_true, List.all_eq_true, decide_eq_true_eq, mem_held_iff_owns hs]
  exact ⟨fun h d => by cases d; exact h.1; exact h.2, fun h => ⟨h .down, h .up⟩⟩

/-- Writing a map entry changes the Slot Map unit alone. -/
theorem setEntry_frame (s : State) (d x e) : s.setEntry d x e = { s with slots := (s.setEntry d x e).slots } := by cases d <;> rfl

/-- What an owner owns depends on the Slot Map unit alone. -/
theorem owns_slots {s t : State} (h : s.slots = t.slots) (o d x) : s.owns o d x ↔ t.owns o d x := by unfold State.owns; rw [mapEntry_of_slots h]

/-- Whether a circuit owns all its slots depends on the Slot Map unit alone. -/
theorem ownsAll_slots {s t : State} (h : s.slots = t.slots) (n c) : s.ownsAll n c ↔ t.ownsAll n c := by
  unfold State.ownsAll; simp only [owns_slots h]

/-- Freeing a slot, with what its new owner is told (R72, R78, R82). -/
theorem freeSlot_letsGo (s : State) (hs : s.slots.down.length = 43 ∧ s.slots.up.length = 43) (o : Owner) (r : SlotRef)
    (hr : 5 ≤ r.2 ∧ r.2 ≤ 47) :
    LetsGo o r s (s.freeSlot o r) := by
  obtain ⟨f1, f2, -, f4, f5⟩ := freeSlot_spec s hs o r hr
  refine ⟨f2, fun hun => ?_, fun e hw => ?_⟩
  · have hnil : State.waitingAt s r = [] := by
      unfold State.waitingAt; rw [List.filter_eq_nil_iff]; intro e he; simpa using hun e he
    have hb : bestEntry (State.waitingAt s r) = none := by rw [hnil]; rfl
    rw [hb] at f1 f4
    refine ⟨f1, f4, ?_⟩
    have : s.freeSlot o r = s.setEntry r.1 r.2 none := by
      unfold State.freeSlot; rw [show (s.slots.reclaim.filter fun e => decide (e.dir = r.1 ∧ e.slot = r.2)) = State.waitingAt s r from rfl, hb]
    rw [this]; exact setEntry_frame _ _ _ _
  · have hb : bestEntry (State.waitingAt s r) = some e := bestEntry_of_wins hw
    have he : e.dir = r.1 ∧ e.slot = r.2 := by simpa using (List.mem_filter.mp (bestEntry_mem hb)).2
    rw [hb] at f1 f4
    set s₂ : State := { s.setEntry r.1 r.2 (some { owner := e.owner, prec := e.prec }) with
      slots := { (s.setEntry r.1 r.2 (some { owner := e.owner, prec := e.prec })).slots with
        reclaim := (s.setEntry r.1 r.2 (some { owner := e.owner, prec := e.prec })).slots.reclaim.erase e } } with hs₂
    have ht : s.freeSlot o r = s₂.tellRegained e o := by
      unfold State.freeSlot; rw [show (s.slots.reclaim.filter fun e => decide (e.dir = r.1 ∧ e.slot = r.2)) = State.waitingAt s r from rfl, hb]
    have hts : (s.freeSlot o r).slots = s₂.slots := by rw [ht, tellRegained_keeps_slots]
    have hs2 : s₂ = { s with slots := s₂.slots } := by
      rw [hs₂]; conv_lhs => rw [setEntry_frame]
    have hlen2 : s₂.slots.down.length = 43 ∧ s₂.slots.up.length = 43 := by rw [← hts]; exact f5
    refine ⟨f1, f4, fun l hl => ?_, fun n c hn hc hd hall => ?_, fun n hn hno => ?_⟩
    · rw [hts, ht]
      have : s₂.tellRegained e o = s₂.report (.slotEvent l e.dir e.slot .regained o none none s₂.now) := by unfold State.tellRegained; rw [hl]
      rw [this, he.1, he.2]
      conv_lhs => rw [hs2]
      rfl
    · rw [hts, ht]
      have h1 : s₂.tellRegained e o = s₂.circuitSlotRegained n := by unfold State.tellRegained; rw [hn]
      have hcc : s₂.circuit n = some c := by rw [hs2]; exact hc
      have hwh : s₂.whole n c = true := (whole_iff hlen2 n c).mpr ((ownsAll_slots hts n c).mp hall)
      have h2 : s₂.circuitSlotRegained n = s₂.changeCircuit n c (if s₂.isOnline c.source then .live else .muted) .slotsRegained none := by
        unfold State.circuitSlotRegained; rw [hcc]; simp only; rw [if_pos ⟨hd, hwh⟩]
      rw [h1, h2]
      have hon : s₂.isOnline c.source = decide ((s.station c.source).state = .online) := by rw [hs2]; rfl
      rw [hon]
      intro new
      conv_lhs => rw [hs2]
      by_cases hq : (s.station c.source).state = .online <;> simp only [new, hq, decide_true, decide_false, if_true, if_false, Bool.false_eq_true] <;>
        simp only [State.changeCircuit, State.setCircuit, State.report, State.now, hd, silence_eq_emptied]
    · rw [hts, ht]
      have h1 : s₂.tellRegained e o = s₂.circuitSlotRegained n := by unfold State.tellRegained; rw [hn]
      rw [h1]
      have hcc : s₂.circuit n = s.circuit n := by rw [hs2]; rfl
      have h2 : s₂.circuitSlotRegained n = s₂ := by
        unfold State.circuitSlotRegained; rw [hcc]
        cases hc : s.circuit n with
        | none => rfl
        | some c =>
          simp only; rw [if_neg]; rintro ⟨hd, hwh⟩
          exact hno c hc hd ((ownsAll_slots hts n c).mpr ((whole_iff hlen2 n c).mp hwh))
      rw [h2]; exact hs2

/-- The model's test for ownership. -/
theorem mapEntry_any_iff_owns (s : State) (o : Owner) (r : SlotRef) : ((s.mapEntry r.1 r.2).any fun e => decide
    (e.owner = o)) = true ↔ s.owns o r.1 r.2 := by
  unfold State.owns; cases s.mapEntry r.1 r.2 <;> simp

/-- Freeing slots is letting go, one by one, those that the owner owns (R72). -/
theorem freeSlots_through (o : Owner) (rs : List SlotRef) (hnd : rs.Nodup) (hin : ∀ r ∈ rs, 5 ≤ r.2 ∧ r.2 ≤ 47) (s :
    State) (hs : s.slots.down.length = 43 ∧ s.slots.up.length = 43) :
    Through (LetsGo o) (rs.filter fun r => (s.mapEntry r.1 r.2).any fun e => decide (e.owner = o)) s (s.freeSlots o
      rs) := by
  induction rs generalizing s with
  | nil => rfl
  | cons r rs ih =>
    rw [List.nodup_cons] at hnd
    have e : s.freeSlots o (r :: rs) = (if ((s.mapEntry r.1 r.2).any fun e => decide (e.owner = o)) = true then s.freeSlot o r else s).freeSlots o rs := rfl
    rw [e, List.filter_cons]
    by_cases hc : ((s.mapEntry r.1 r.2).any fun e => decide (e.owner = o)) = true
    · rw [if_pos hc, if_pos hc]
      have hr := hin r List.mem_cons_self
      have hl := freeSlot_letsGo s hs o r hr
      refine ⟨_, hl, ?_⟩
      have h := ih hnd.2 (fun x hx => hin x (List.mem_cons_of_mem _ hx)) (s.freeSlot o r) (freeSlot_spec s hs o r hr).2.2.2.2
      have hf : rs.filter (fun r' => ((s.freeSlot o r).mapEntry r'.1 r'.2).any fun e => decide (e.owner = o)) = rs.filter fun r' => (s.mapEntry r'.1 r'.2).any fun e => decide (e.owner = o) := by
        apply List.filter_congr; intro r' hr'
        rw [hl.map r'.1 r'.2 (by rintro h; exact hnd.1 (h ▸ hr'))]
      rw [hf] at h; exact h
    · rw [if_neg hc, if_neg hc]
      exact ih hnd.2 (fun x hx => hin x (List.mem_cons_of_mem _ hx)) s hs

/-- A claim's slots are in the order of R67. -/
theorem claimSlots_inOrder (down up : List Nat) : InOrder (claimSlots down up) := by
  unfold InOrder claimSlots; rw [List.pairwise_append]
  refine ⟨?_, ?_, ?_⟩
  · rw [List.pairwise_map]; exact (ascending_sorted down).imp fun h => .inr ⟨rfl, h⟩
  · rw [List.pairwise_map]; exact (ascending_sorted up).imp fun h => .inr ⟨rfl, h⟩
  · intro a ha b hb
    obtain ⟨x, -, rfl⟩ := List.mem_map.mp ha
    obtain ⟨y, -, rfl⟩ := List.mem_map.mp hb
    exact .inl ⟨rfl, rfl⟩

/-- The end of a circuit lets go the slots it owns, in order (R84, R85). -/
theorem circuitSlots_through (n : Nat) (c : Circuit) (s : State) (hs : s.slots.down.length = 43 ∧ s.slots.up.length =
    43) :
    ∃ l : List SlotRef, InOrder l ∧ (∀ d x, (d, x) ∈ l ↔ x ∈ c.slots d ∧ s.owns (.circuit n) d x)
      ∧ Through (LetsGo (.circuit n)) l s (s.freeSlots (.circuit n) (claimSlots c.down c.up)) := by
  refine ⟨_, List.Pairwise.filter _ (claimSlots_inOrder c.down c.up), fun d x => ?_, freeSlots_through _ _ (nodup_claimSlots _ _) (in_claimSlots _ _) s hs⟩
  rw [List.mem_filter, mem_claimSlots, mapEntry_any_iff_owns]
  constructor
  · rintro ⟨⟨-, h⟩, h2⟩; exact ⟨by cases d <;> exact h, h2⟩
  · rintro ⟨h, h2⟩
    refine ⟨⟨?_, by cases d <;> exact h⟩, h2⟩
    obtain ⟨e, h3, -⟩ := h2; exact mapEntry_range hs h3

/-- The state with the host link given. -/
def State.onLink (L : HostLink) (s : State) : State := { s with link := L }

/-- Letting go touches no host link. -/
theorem LetsGo.onLink (L : HostLink) {o r s t} (h : LetsGo o r s t) : LetsGo o r (State.onLink L s) (State.onLink L t)
    := by
  refine ⟨h.map, fun hu => ?_, fun e hw => ?_⟩
  · obtain ⟨a, b, c⟩ := h.unclaimed hu
    exact ⟨a, b, congrArg (State.onLink L) c⟩
  · obtain ⟨a, b, c, d, f⟩ := h.won e hw
    exact ⟨a, b, fun l hl => congrArg (State.onLink L) (c l hl), fun n k hn hk hd ha => congrArg (State.onLink L) (d n k hn hk hd ha),
      fun n hn hno => congrArg (State.onLink L) (f n hn hno)⟩

/-- Steps that touch no host link, one after another. -/
theorem Through.onLink {α} (L : HostLink) {R : α → State → State → Prop} (hR : ∀ x s t, R x s t → R x (State.onLink L
    s) (State.onLink L t)) (l : List α) (s u : State)
    (h : Through R l s u) : Through R l (State.onLink L s) (State.onLink L u) := by
  induction l generalizing s with
  | nil => exact congrArg (State.onLink L) h
  | cons x l ih => obtain ⟨t, h1, h2⟩ := h; exact ⟨_, hR _ _ _ h1, ih _ h2⟩

/-- The owner waits for the slot. -/
def WaitBy (o : Owner) (s : State) (d : Dir) (x : Nat) : Prop := ∃ e ∈ s.slots.reclaim, e.owner = o ∧ e.dir = d ∧
    e.slot = x

/-- The slot is in the owner's claimed set (R67). -/
def ClaimedBy (o : Owner) (s : State) (d : Dir) (x : Nat) : Prop := s.owns o d x ∨ WaitBy o s d x

/-- From `s` to `t` the owner keeps what it held and claimed, and the lanes keep their settings. -/
structure KeepsClaims (o : Owner) (s t : State) : Prop where
  held : ∀ d x e, s.mapEntry d x = some e → e.owner = o → t.mapEntry d x = some e
  cl : ∀ d x, ClaimedBy o t d x ↔ ClaimedBy o s d x
  wait : ∀ e ∈ t.slots.reclaim, e.owner = o → e ∈ s.slots.reclaim
  lanes : ∀ k, (t.lane k).prec = (s.lane k).prec ∧ (t.lane k).cutThrough = (s.lane k).cutThrough
  len : t.slots.down.length = 43 ∧ t.slots.up.length = 43
  own : ∀ n c, o = .circuit n → s.circuit n = some c → c.state ≠ .displaced → t.circuit n = some c

/-- One after the other. -/
theorem KeepsClaims.trans {o s t u} (h : KeepsClaims o s t) (h2 : KeepsClaims o t u) : KeepsClaims o s u :=
  ⟨fun d x e a b => h2.held d x e (h.held d x e a b) b, fun d x => (h2.cl d x).trans (h.cl d x), fun e a b => h.wait e
    (h2.wait e a b) b,
   fun k => ⟨(h2.lanes k).1.trans (h.lanes k).1, (h2.lanes k).2.trans (h.lanes k).2⟩, h2.len, fun n c a b d => h2.own
     n c a (h.own n c a b d) d⟩

/-- No change. -/
theorem KeepsClaims.refl {o} {s : State} (h : s.slots.down.length = 43 ∧ s.slots.up.length = 43) : KeepsClaims o s s
    :=
  ⟨fun _ _ _ a _ => a, fun _ _ => Iff.rfl, fun _ a _ => a, fun _ => ⟨rfl, rfl⟩, h, fun _ _ _ a _ => a⟩

/-- The map is the same, and the Reclaim List as far as the owner goes. -/
theorem KeepsClaims.of_same_map {o} {s t : State} (hl : s.slots.down.length = 43 ∧ s.slots.up.length = 43) (hd :
    t.slots.down = s.slots.down) (hu : t.slots.up = s.slots.up)
    (hr : ∀ e, e.owner = o → (e ∈ t.slots.reclaim ↔ e ∈ s.slots.reclaim))
    (hla : ∀ k, (t.lane k).prec = (s.lane k).prec ∧ (t.lane k).cutThrough = (s.lane k).cutThrough)
    (ho : ∀ n c, o = .circuit n → s.circuit n = some c → c.state ≠ .displaced → t.circuit n = some c) : KeepsClaims o
      s t := by
  have hm : ∀ d x, t.mapEntry d x = s.mapEntry d x := by
    intro d x; unfold State.mapEntry SlotUnit.side; cases d <;> simp only [hd, hu]
  refine ⟨fun d x e a _ => (hm d x).trans a, fun d x => ?_, fun e a b => (hr e b).mp a, hla, by rw [hd, hu]; exact hl, ho⟩
  unfold ClaimedBy State.owns WaitBy; rw [hm]
  constructor
  · rintro (h | ⟨e, he, h1, h2⟩)
    · exact .inl h
    · exact .inr ⟨e, (hr e h1).mp he, h1, h2⟩
  · rintro (h | ⟨e, he, h1, h2⟩)
    · exact .inl h
    · exact .inr ⟨e, (hr e h1).mpr he, h1, h2⟩

/-- Freeing another owner's slots. -/
theorem KeepsClaims.freeSlots {o o' : Owner} (ho : o' ≠ o) (rs : List SlotRef) (hnd : rs.Nodup) (hin : ∀ r ∈ rs, 5 ≤
    r.2 ∧ r.2 ≤ 47) (s : State) (hs : s.slots.down.length = 43 ∧ s.slots.up.length = 43) :
    KeepsClaims o s (s.freeSlots o' rs) := by
  obtain ⟨b1, b2, b3, b4, b5⟩ := freeSlots_spec o' rs hnd hin s hs
  have hheld : ∀ d x e, s.mapEntry d x = some e → e.owner = o → (s.freeSlots o' rs).mapEntry d x = some e := by
    intro d x e h1 h2
    rw [b1 d x (.inr (by rintro ⟨e', h3, h4⟩; rw [h1] at h3; cases h3; exact ho (h4.symm.trans h2)))]; exact h1
  refine ⟨hheld, fun d x => ⟨?_, ?_⟩, fun e a _ => b3 e a, fun k => ?_, b5, fun n c _ h1 h2 => freeSlots_keeps_circuit _ _ _ _ _ h1 h2⟩
  · rintro (⟨e, h1, h2⟩ | ⟨e, h1, h2⟩)
    · by_cases hc : (d, x) ∈ rs ∧ ∃ e, s.mapEntry d x = some e ∧ e.owner = o'
      · rw [b2 d x hc.1 hc.2] at h1
        cases hb : bestEntry (State.waitingAt s (d, x)) with
        | none => rw [hb] at h1; cases h1
        | some b =>
          rw [hb] at h1; simp only [Option.map_some, Option.some.injEq] at h1; subst h1
          have hm := List.mem_filter.mp (bestEntry_mem hb)
          exact .inr ⟨b, hm.1, h2, by simpa using hm.2⟩
      · have : (d, x) ∉ rs ∨ ¬(∃ e, s.mapEntry d x = some e ∧ e.owner = o') := by
          by_cases h : (d, x) ∈ rs
          · exact .inr fun hh => hc ⟨h, hh⟩
          · exact .inl h
        rw [b1 d x this] at h1; exact .inl ⟨e, h1, h2⟩
    · exact .inr ⟨e, b3 e h1, h2⟩
  · rintro (⟨e, h1, h2⟩ | ⟨e, h1, h2, h3, h4⟩)
    · exact .inl ⟨e, hheld d x e h1 h2, h2⟩
    · by_cases hm : e ∈ (s.freeSlots o' rs).slots.reclaim
      · exact .inr ⟨e, hm, h2, h3, h4⟩
      · have := b4 e h1 hm
        rw [h3, h4] at this
        exact .inl ⟨_, this, h2⟩
  · have : (s.freeSlots o' rs).lanes = s.lanes := by simp
    unfold State.lane; rw [this]; exact ⟨rfl, rfl⟩

/-- A lane engine's loss of a slot keeps the lanes' settings (R134). -/
theorem laneSlotLost_keeps (s : State) (l slot k : Nat) : ((s.laneSlotLost l slot).lane k).prec = (s.lane k).prec ∧
    ((s.laneSlotLost l slot).lane k).cutThrough = (s.lane k).cutThrough := by
  have hm : ∀ (s : State) l (f : Lane → Lane), (∀ x, (f x).prec = x.prec ∧ (f x).cutThrough = x.cutThrough) → ((s.modLane l f).lane k).prec = (s.lane k).prec ∧ ((s.modLane l f).lane k).cutThrough = (s.lane k).cutThrough := by
    intro s l f hf; unfold State.lane State.modLane; simp only; rw [List.getElem?_modify]
    split
    · cases s.lanes[k]? with
      | none => exact ⟨rfl, rfl⟩
      | some x => exact hf x
    · cases s.lanes[k]? <;> exact ⟨rfl, rfl⟩
  unfold State.laneSlotLost; dsimp only; split
  · next p _ _ =>
    split
    · have h1 := hm (s.finishPacket l p .aborted (some .slotsLost)) l (fun y => y.rest .gap) (fun x => ⟨rfl, rfl⟩)
      refine ⟨h1.1.trans ?_, h1.2.trans ?_⟩
      · exact (hm s l (fun x => { x with queue := x.queue.filter fun q => q.handle != p.handle }) (fun x => ⟨rfl, rfl⟩)).1
      · exact (hm s l (fun x => { x with queue := x.queue.filter fun q => q.handle != p.handle }) (fun x => ⟨rfl, rfl⟩)).2
    · exact ⟨rfl, rfl⟩
  · exact ⟨rfl, rfl⟩

/-- A lane told of a loss keeps the lanes' settings. -/
theorem tellLane_keeps (s : State) (l : Nat) (r : SlotRef) (k : Nat) : ((s.tellLane l r).lane k).prec = (s.lane
    k).prec ∧ ((s.tellLane l r).lane k).cutThrough = (s.lane k).cutThrough := by
  unfold State.tellLane; split
  · exact laneSlotLost_keeps _ _ _ _
  · split
    · split
      · have : ∀ e, (s.endWindow e).lane k = s.lane k := fun e => by unfold State.lane; simp
        rw [this]; exact ⟨rfl, rfl⟩
      · exact ⟨rfl, rfl⟩
    · exact ⟨rfl, rfl⟩

/-- Another owner's loss (R68). -/
theorem KeepsClaims.takeLoss (o : Owner) (prec : Nat) (s : State) (x : Loss) (hx : x.entry.owner ≠ o) (hs :
    s.slots.down.length = 43 ∧ s.slots.up.length = 43) :
    KeepsClaims o s (State.takeLoss o prec s x) := by
  have hadd : ∀ e : ReclaimEntry, e.owner = o → (e ∈ (s.addReclaim x).slots.reclaim ↔ e ∈ s.slots.reclaim) := by
    intro e he; unfold State.addReclaim; simp only [List.mem_append, List.mem_singleton]
    constructor
    · rintro (h | h)
      · exact h
      · subst h; exact absurd he hx
    · exact .inl
  unfold State.takeLoss; dsimp only
  cases ho : x.entry.owner with
  | lane l =>
    simp only
    refine KeepsClaims.of_same_map hs ?_ ?_ (fun e he => ?_) (fun k => ?_) (fun n c a b d => ?_)
    · simp only [State.tellLane_frame, State.report_slots]; split <;> rfl
    · simp only [State.tellLane_frame, State.report_slots]; split <;> rfl
    · simp only [State.tellLane_frame, State.report_slots]; split
      · exact hadd e he
      · exact Iff.rfl
    · obtain ⟨q1, q2⟩ := tellLane_keeps (State.report (if s.reclaimRoom = true then s.addReclaim x else s) (.slotEvent l x.slot.1 x.slot.2 .lost o (some prec) (some s.reclaimRoom) (if s.reclaimRoom = true then s.addReclaim x else s).now)) l x.slot k
      have : ∀ r, (State.report (if s.reclaimRoom = true then s.addReclaim x else s) r).lane k = s.lane k := by
        intro r; split <;> rfl
      rw [this] at q1 q2
      refine ⟨Eq.trans ?_ q1, Eq.trans ?_ q2⟩ <;> (congr 3; split <;> rfl)
    · have hcc : ∀ t : State, t.circuits = s.circuits → t.circuit n = some c := fun t ht => by unfold State.circuit at *; rw [ht]; exact b
      apply hcc; simp only [State.tellLane_frame]; split <;> rfl
  | circuit m =>
    simp only
    cases hc : s.circuit m with
    | none => exact KeepsClaims.refl hs
    | some c' =>
      simp only
      have hmo : ∀ n, o = .circuit n → n ≠ m := by rintro n rfl rfl; exact hx ho
      split
      · unfold State.circuitSlotLost
        have hK : KeepsClaims o s (s.addReclaim x) := KeepsClaims.of_same_map hs rfl rfl hadd (fun _ => ⟨rfl, rfl⟩) (fun _ _ _ b _ => b)
        split
        · exact hK
        · refine KeepsClaims.trans hK (KeepsClaims.of_same_map hK.len rfl rfl (fun _ _ => Iff.rfl) (fun _ => ⟨rfl, rfl⟩) (fun n c a b d => ?_))
          exact (State.circuit_setCircuit_ne _ m n _ (hmo n a)).trans b
      · unfold State.closeNoReclaim State.removeCircuit; dsimp only
        have hK : KeepsClaims o s ((s.dropReclaim fun e => decide (e.owner = .circuit m)).report (.circuitState m c'.source .closed c'.state .noReclaim (some x.slot) s.now)) := by
          refine KeepsClaims.of_same_map hs rfl rfl (fun e he => ?_) (fun _ => ⟨rfl, rfl⟩) (fun _ _ _ b _ => b)
          show e ∈ (s.slots.reclaim.filter fun e => !decide (e.owner = .circuit m)) ↔ _
          rw [List.mem_filter]
          have : e.owner ≠ .circuit m := by rw [he, ← ho]; exact fun h => hx h.symm
          simp [this]
        have hK2 := KeepsClaims.freeSlots (o := o) (o' := .circuit m) (by rw [← ho]; exact hx) (claimSlots c'.down c'.up) (nodup_claimSlots _ _) (in_claimSlots _ _) _ hK.len
        refine KeepsClaims.trans (KeepsClaims.trans hK hK2) (KeepsClaims.of_same_map hK2.len rfl rfl (fun _ _ => Iff.rfl) (fun _ => ⟨rfl, rfl⟩) (fun n c a b d => ?_))
        exact (State.circuit_setCircuit_ne _ m n _ (hmo n a)).trans b

/-- Other owners' losses (R68). -/
theorem KeepsClaims.losses (o : Owner) (prec : Nat) (xs : List Loss) (hx : ∀ x ∈ xs, x.entry.owner ≠ o) (s : State)
    (hs : s.slots.down.length = 43 ∧ s.slots.up.length = 43) :
    KeepsClaims o s (xs.foldl (State.takeLoss o prec) s) := by
  induction xs generalizing s with
  | nil => exact KeepsClaims.refl hs
  | cons x xs ih =>
    have h1 := KeepsClaims.takeLoss o prec s x (hx x List.mem_cons_self) hs
    exact KeepsClaims.trans h1 (ih (fun y hy => hx y (List.mem_cons_of_mem _ hy)) _ h1.len)

/-- The slots of a claim become the owner's. -/
theorem setEntries_spec (o : Owner) (prec : Nat) (rs : List SlotRef) (hin : ∀ r ∈ rs, 5 ≤ r.2 ∧ r.2 ≤ 47) (s : State)
    (hs : s.slots.down.length = 43 ∧ s.slots.up.length = 43) :
    let t : State := rs.foldl (fun s r => s.setEntry r.1 r.2 (some { owner := o, prec := prec })) s
    (∀ d x, t.mapEntry d x = if (d, x) ∈ rs then some { owner := o, prec := prec } else s.mapEntry d x)
    ∧ (t.slots.down.length = 43 ∧ t.slots.up.length = 43) ∧ t.slots.reclaim = s.slots.reclaim ∧ t.lanes = s.lanes ∧
      t.circuits = s.circuits := by
  induction rs generalizing s with
  | nil => exact ⟨fun _ _ => by simp, hs, rfl, rfl, rfl⟩
  | cons r rs ih =>
    intro t
    have hr := hin r List.mem_cons_self
    have hlen : (s.setEntry r.1 r.2 (some { owner := o, prec := prec })).slots.down.length = 43 ∧ (s.setEntry r.1 r.2 (some { owner := o, prec := prec })).slots.up.length = 43 := by
      unfold State.setEntry setSlot; cases r.1 <;> simp only <;> split <;> simp [hs]
    obtain ⟨i1, i2, i3, i4, i5⟩ := ih (fun x hx => hin x (List.mem_cons_of_mem _ hx)) (s.setEntry r.1 r.2 (some { owner := o, prec := prec })) hlen
    refine ⟨fun d x => ?_, i2, i3.trans (by simp), i4.trans (by simp), i5.trans (by simp)⟩
    refine (i1 d x).trans ?_
    by_cases h1 : (d, x) ∈ rs
    · rw [if_pos h1, if_pos (List.mem_cons_of_mem _ h1)]
    · rw [if_neg h1]
      by_cases h2 : (d, x) = r
      · subst h2; rw [if_pos List.mem_cons_self]
        apply State.mapEntry_setEntry_self _ _ _ _ hr.1
        cases d <;> simp only [SlotUnit.side, Config.firstPayload] <;> omega
      · rw [if_neg (by simp [h1, h2])]
        apply State.mapEntry_setEntry_ne
        by_cases hd : d = r.1
        · right; intro hx; exact h2 (by rw [hd, hx])
        · left; exact hd

/-- What a claim does to the map, the claimed sets and the lanes' settings (R67, R68). -/
theorem applyClaim_spec (o : Owner) (prec : Nat) (rs : List SlotRef) (hin : ∀ r ∈ rs, 5 ≤ r.2 ∧ r.2 ≤ 47) (s : State)
    (hs : s.slots.down.length = 43 ∧ s.slots.up.length = 43) :
    let t := s.applyClaim o prec rs
    (∀ d x, (d, x) ∈ rs → t.mapEntry d x = some { owner := o, prec := prec })
    ∧ (∀ d x e, (d, x) ∉ rs → s.mapEntry d x = some e → e.owner = o → t.mapEntry d x = some e)
    ∧ (∀ d x, ClaimedBy o t d x ↔ ((d, x) ∈ rs ∨ ClaimedBy o s d x))
    ∧ (∀ e ∈ t.slots.reclaim, e.owner = o → e ∈ s.slots.reclaim)
    ∧ (∀ k, (t.lane k).prec = (s.lane k).prec ∧ (t.lane k).cutThrough = (s.lane k).cutThrough)
    ∧ (t.slots.down.length = 43 ∧ t.slots.up.length = 43)
    ∧ (∀ n c, o = .circuit n → s.circuit n = some c → c.state ≠ .displaced → t.circuit n = some c) := by
  intro t
  obtain ⟨a1, a2, a3, a4, a5⟩ := setEntries_spec o prec rs hin s hs
  have K := KeepsClaims.losses o prec (s.losses o rs) (by
    intro x hx; unfold State.losses at hx; rw [List.mem_filterMap] at hx
    obtain ⟨r, _, h⟩ := hx
    split at h
    · split at h
      · cases h
      · next hne => cases h; exact hne
    · cases h) _ a2
  have ht : t = (s.losses o rs).foldl (State.takeLoss o prec) (rs.foldl (fun s r => s.setEntry r.1 r.2 (some { owner := o, prec := prec })) s) := rfl
  rw [ht]
  generalize (rs.foldl (fun s r => s.setEntry r.1 r.2 (some { owner := o, prec := prec })) s) = s1 at *
  refine ⟨fun d x h => K.held d x _ (by rw [a1, if_pos h]) rfl, fun d x e h h1 h2 => K.held d x e (by rw [a1, if_neg h]; exact h1) h2, fun d x => ?_, fun e h1 h2 => by rw [← a3]; exact K.wait e h1 h2, fun k => ?_, K.len, fun n c h1 h2 h3 => K.own n c h1 (by unfold State.circuit at *; rw [a5]; exact h2) h3⟩
  · rw [K.cl]; unfold ClaimedBy State.owns WaitBy; rw [a1, a3]
    by_cases h : (d, x) ∈ rs
    · rw [if_pos h]; constructor
      · intro _; exact .inl h
      · intro _; exact .inl ⟨_, rfl, rfl⟩
    · rw [if_neg h]; constructor
      · exact .inr
      · rintro (h' | h'); exact absurd h' h; exact h'
  · have : s1.lane k = s.lane k := by unfold State.lane; rw [a4]
    rw [← this]; exact K.lanes k

/-- Discarding the packet in progress, as one update (R150). -/
theorem discardPacket_eq (t : State) : t.discardPacket = { t with rx := t.rx.discarded, free := t.free + t.rx.held }
    := by
  unfold State.discardPacket Receiver.discarded
  split
  · next h =>
    have : t.rx.held = 0 := by unfold Receiver.held; rw [h]
    rw [this]; rfl
  · simp only [State.idleReceiver, sat16, satAdd]

/-- What a lane told of a loss does (R77). -/
theorem tellLane_told (s : State) (l : Nat) (r : SlotRef) : LaneTold l r s (s.tellLane l r) := by
  refine ⟨fun p rest hd hb hm hq hh => ?_, fun hd hno => ?_, fun w hu hw hl hm => ?_, fun hu hno => ?_⟩
  · have hlen : l < s.lanes.length := by
      by_contra hc
      have : s.lane l = .fresh := by unfold State.lane; rw [List.getElem?_eq_none (by omega)]; rfl
      rw [this] at hq; cases hq
    have hbusy : (s.lane l).busy = true := by unfold Lane.busy; rcases hb with h | h <;> rw [h]
    have e : s.tellLane l r = (s.finishPacket l p .aborted (some .slotsLost)).modLane l fun y => y.rest .gap := by
      unfold State.tellLane; rw [hd]; simp only; unfold State.laneSlotLost; dsimp only; rw [hq]; simp only; rw [if_pos ⟨hbusy, hm⟩]
    rw [e]
    have hlg : s.lanes[l]? = some (s.lane l) := by
      unfold State.lane; rw [List.getElem?_eq_getElem hlen]; rfl
    have hlanes : ((s.lanes.modify l fun x => { x with queue := x.queue.filter fun q => q.handle != p.handle }).modify l fun y => y.rest .gap)
        = s.lanes.set l { s.lane l with engine := .gap, activeSet := [], gapCount := 0, queue := rest } := by
      rw [List.modify_modify_eq]
      apply List.ext_getElem?; intro i
      rw [List.getElem?_modify, List.getElem?_set]
      by_cases hi : l = i
      · subst hi; simp only [if_true, hlen, hlg, Option.map_eq_map, Option.map_some, Function.comp, Lane.rest]
        have hf : ((s.lane l).queue.filter fun q => q.handle != p.handle) = rest := by
          rw [hq, List.filter_cons]; simp only [bne_self_eq_false, Bool.false_eq_true, if_false]
          rw [List.filter_eq_self]; intro q hqm; simpa using hh q hqm
        rw [hf]
      · simp only [hi, if_false]; cases s.lanes[i]? <;> rfl
    simp only [State.finishPacket, State.modLane, State.complete, State.now, blocksFor, Config.blockSize, Packet.done_aborted, hlanes, ReportUnit.placed]
  · unfold State.tellLane; rw [hd]; simp only; unfold State.laneSlotLost; dsimp only
    cases hq : (s.lane l).queue with
    | nil => rfl
    | cons p rest =>
      simp only; rw [if_neg]; rintro ⟨h1, h2⟩
      refine hno ⟨?_, h2, by rw [hq]; simp⟩
      unfold Lane.busy at h1; revert h1; cases (s.lane l).engine <;> simp
  · unfold State.tellLane; rw [hu]; simp only; rw [hw]; simp only; rw [if_pos ⟨hl, hm⟩]
    unfold State.endWindow; rw [hw]
    simp only [WindowEnd.fault, WindowEnd.byReceiver, Bool.false_eq_true, if_false, discardPacket_eq]
    rfl
  · unfold State.tellLane; rw [hu]; simp only
    cases hw : s.window.window with
    | none => rfl
    | some w => simp only; rw [if_neg (hno w hw)]

/-- What one loss does (R68, R71, R77, R82, R85). -/
theorem takeLoss_takes (o : Owner) (prec : Nat) (s : State) (x : Loss) (hs : s.slots.down.length = 43 ∧
    s.slots.up.length = 43) :
    TakesLoss o prec (x.slot, x.entry) s (State.takeLoss o prec s x) := by
  have hroom : s.reclaimRoom = decide (s.slots.reclaim.length < 64) := rfl
  refine ⟨fun l hl => ?_, fun n hn hc => ?_, fun n c hn hc hr => ?_, fun n c hn hc hr => ?_⟩
  · intro room entry
    have hl : x.entry.owner = .lane l := hl
    have e : State.takeLoss o prec s x = ((if s.reclaimRoom = true then s.addReclaim x else s).report (.slotEvent l x.slot.1 x.slot.2 .lost o (some prec) (some s.reclaimRoom) s.now)).tellLane l x.slot := by
      unfold State.takeLoss; dsimp only; rw [hl]
    rw [e]
    have h0 : (if s.reclaimRoom = true then s.addReclaim x else s).report (.slotEvent l x.slot.1 x.slot.2 .lost o (some prec) (some s.reclaimRoom) s.now) =
      { s with
        slots := { s.slots with reclaim := if room = true then s.slots.reclaim ++ [entry] else s.slots.reclaim }
        rep := s.rep.handOver (.slotEvent l x.slot.1 x.slot.2 .lost o (some prec) (some room) s.line.cycleCounter) } := by
      rw [hroom]
      by_cases hx : s.slots.reclaim.length < 64
      · simp only [hx, decide_true, if_true, room, entry, State.addReclaim, State.report, State.now, hl]
      · simp only [hx, decide_false, Bool.false_eq_true, if_false, room, State.report, State.now]
    rw [h0]
    exact tellLane_told _ l x.slot
  · have hn : x.entry.owner = .circuit n := hn
    unfold State.takeLoss; dsimp only; rw [hn]; simp only; rw [hc]
  · have hn : x.entry.owner = .circuit n := hn
    have e : State.takeLoss o prec s x = (s.addReclaim x).circuitSlotLost n c x.slot := by
      unfold State.takeLoss; dsimp only; rw [hn]; simp only; rw [hc]; simp only; rw [if_pos (by rw [hroom]; simpa using hr)]
    intro entry waits
    rw [e]
    refine ⟨fun hd => ?_, fun hd => ?_⟩
    · unfold State.circuitSlotLost; rw [if_pos hd]
      simp only [State.addReclaim, waits, entry, hn]
    · unfold State.circuitSlotLost; rw [if_neg hd]
      simp only [State.addReclaim, waits, entry, hn, State.changeCircuit, State.setCircuit, State.report, State.now, silence_eq_emptied]
  · have hn : x.entry.owner = .circuit n := hn
    have e : State.takeLoss o prec s x = s.closeNoReclaim n c x.slot := by
      unfold State.takeLoss; dsimp only; rw [hn]; simp only; rw [hc]; simp only
      rw [if_neg (by rw [hroom]; simp only [decide_eq_true_eq, not_lt]; exact hr)]
    set s₂ : State := ((s.dropReclaim fun e => decide (e.owner = .circuit n)).report (.circuitState n c.source .closed c.state .noReclaim (some x.slot) s.now)) with hs₂
    obtain ⟨l, h1, h2, h3⟩ := circuitSlots_through n c s₂ hs
    refine ⟨l, s₂.freeSlots (.circuit n) (claimSlots c.down c.up), h1, fun d y => (h2 d y).trans ?_, ?_, ?_⟩
    · unfold State.owns
      have : s₂.mapEntry d y = s.mapEntry d y := by unfold State.mapEntry; cases d <;> rfl
      rw [this]
    · have h0 : s₂ = { s with
            slots := { s.slots with reclaim := s.slots.reclaim.filter fun e => decide (e.owner ≠ .circuit n) }
            rep := s.rep.handOver
              (.circuitState n c.source .closed c.state .noReclaim (some x.slot) s.line.cycleCounter) } := by
        simp only [hs₂, State.dropReclaim, State.report, State.now, decide_not, ne_eq]
      rw [← h0]; exact h3
    · rw [e]; rfl

/-- Telling a lane touches no host link. -/
theorem LaneTold.onLink (L : HostLink) {l r s t} (h : LaneTold l r s t) : LaneTold l r (State.onLink L s)
    (State.onLink L t) :=
  ⟨fun p rest a b c d e => congrArg (State.onLink L) (h.packet p rest a b c d e), fun a b => congrArg (State.onLink L)
    (h.idle a b),
   fun w a b c d => congrArg (State.onLink L) (h.window w a b c d), fun a b => congrArg (State.onLink L) (h.other a
     b)⟩

/-- Taking a loss touches no host link. -/
theorem TakesLoss.onLink (L : HostLink) {o prec x s t} (h : TakesLoss o prec x s t) : TakesLoss o prec x (State.onLink
    L s) (State.onLink L t) := by
  refine ⟨fun l hl => LaneTold.onLink L (h.lane l hl), fun n hn hc => congrArg (State.onLink L) (h.gone n hn hc), fun n c hn hc hr => ?_, fun n c hn hc hr => ?_⟩
  · obtain ⟨a, b⟩ := h.circuit n c hn hc hr
    exact ⟨fun hd => congrArg (State.onLink L) (a hd), fun hd => congrArg (State.onLink L) (b hd)⟩
  · obtain ⟨l, v, h1, h2, h3, h4⟩ := h.closed n c hn hc hr
    exact ⟨l, State.onLink L v, h1, h2, Through.onLink L (fun _ _ _ q => LetsGo.onLink L q) _ _ _ h3, congrArg (State.onLink L) h4⟩

/-- Applying a claim touches no host link. -/
theorem ClaimApplied.onLink (L : HostLink) {o prec new s u} (h : ClaimApplied o prec new s u) : ClaimApplied o prec
    new (State.onLink L s) (State.onLink L u) := by
  obtain ⟨ls, v, h1, h2, h3, h4, h5, h6, h7⟩ := h
  exact ⟨ls, State.onLink L v, h1, h2, h3, congrArg (State.onLink L) h4, h5, h6, Through.onLink L (fun _ _ _ q => TakesLoss.onLink L q) _ _ _ h7⟩

/-- The losses of a claim, one by one (R68). -/
theorem losses_through (o : Owner) (prec : Nat) (xs : List Loss) (hx : ∀ x ∈ xs, x.entry.owner ≠ o) (s : State) (hs :
    s.slots.down.length = 43 ∧ s.slots.up.length = 43) :
    Through (TakesLoss o prec) (xs.map fun x => (x.slot, x.entry)) s (xs.foldl (State.takeLoss o prec) s) := by
  induction xs generalizing s with
  | nil => rfl
  | cons x xs ih =>
    exact ⟨_, takeLoss_takes o prec s x hs, ih (fun y hy => hx y (List.mem_cons_of_mem _ hy)) _ (KeepsClaims.takeLoss o prec s x (hx x List.mem_cons_self) hs).len⟩

/-- Writing map entries changes the Slot Map unit alone. -/
theorem setEntries_slots (o : Owner) (prec : Nat) (rs : List SlotRef) (s : State) :
    let t : State := rs.foldl (fun s r => s.setEntry r.1 r.2 (some { owner := o, prec := prec })) s
    t = { s with slots := t.slots } := by
  induction rs generalizing s with
  | nil => rfl
  | cons r rs ih =>
    intro t
    have h := ih (s.setEntry r.1 r.2 (some { owner := o, prec := prec }))
    have ht : t = rs.foldl (fun s r => s.setEntry r.1 r.2 (some { owner := o, prec := prec })) (s.setEntry r.1 r.2 (some { owner := o, prec := prec })) := rfl
    rw [← ht] at h; dsimp only at h
    have : ∀ (a : State) (q : SlotUnit), a = { s with slots := a.slots } → ({ a with slots := q } : State) = { s with slots := q } := by
      intro a q ha; rw [ha]
    exact h.trans (this _ _ (setEntry_frame _ _ _ _))

/-- The losses of a claim: the slots that had another owner, with the entry they had (R68). -/
theorem mem_losses (s : State) (o : Owner) (rs : List SlotRef) (d x e) :
    ((d, x), e) ∈ ((s.losses o rs).map fun y => (y.slot, y.entry)) ↔ (d, x) ∈ rs ∧ s.mapEntry d x = some e ∧ e.owner ≠
      o := by
  unfold State.losses; simp only [List.mem_map, List.mem_filterMap]
  constructor
  · rintro ⟨y, ⟨r, hr, h⟩, hy⟩
    split at h
    · next e' he =>
      split at h
      · cases h
      · next hne => cases h; cases hy; exact ⟨hr, he, hne⟩
    · cases h
  · rintro ⟨hr, he, hne⟩
    exact ⟨{ slot := (d, x), entry := e }, ⟨(d, x), hr, by rw [he]; simp only; rw [if_neg hne]⟩, rfl⟩

/-- The losses are in the order of the claim. -/
theorem losses_slots_sublist (s : State) (o : Owner) (rs : List SlotRef) : (((s.losses o rs).map fun y => (y.slot,
    y.entry)).map (·.1)).Sublist rs := by
  unfold State.losses
  induction rs with
  | nil => exact List.Sublist.refl _
  | cons r rs ih =>
    rw [List.filterMap_cons]
    split
    · exact ih.cons _
    · next b hb =>
      have : b.slot = r := by
        split at hb
        · split at hb
          · cases hb
          · cases hb; rfl
        · cases hb
      rw [List.map_cons, List.map_cons, this]; exact ih.cons_cons _

/-- What a claim does to everyone concerned (R68). -/
theorem applyClaim_applied (o : Owner) (prec : Nat) (rs : List SlotRef) (new : Dir → Nat → Prop) (hnew : ∀ d x, (d, x)
    ∈ rs ↔ new d x)
    (hord : InOrder rs) (hin : ∀ r ∈ rs, 5 ≤ r.2 ∧ r.2 ≤ 47) (s : State) (hs : s.slots.down.length = 43 ∧
      s.slots.up.length = 43) :
    ClaimApplied o prec new s (s.applyClaim o prec rs) := by
  obtain ⟨a1, a2, a3, a4, a5⟩ := setEntries_spec o prec rs hin s hs
  refine ⟨(s.losses o rs).map (fun x => (x.slot, x.entry)), _, fun d x h => ?_, fun d x h => ?_, a3, setEntries_slots o prec rs s, hord.sublist (losses_slots_sublist s o rs), fun d x e => ?_, ?_⟩
  · rw [a1, if_pos ((hnew d x).mpr h)]
  · rw [a1, if_neg (fun hh => h ((hnew d x).mp hh))]
  · rw [mem_losses, hnew]
  · apply losses_through
    · intro x hx
      have : ((x.slot.1, x.slot.2), x.entry) ∈ ((s.losses o rs).map fun y => (y.slot, y.entry)) := List.mem_map_of_mem (f := fun y : Loss => (y.slot, y.entry)) hx
      exact ((mem_losses s o rs _ _ _).mp this).2.2
    · exact a2

/-- No slot refuses. -/
theorem firstRefusal_none (s : State) (o p) (l : List SlotRef) (h : ∀ r ∈ l, s.refuses o p r = none) : s.firstRefusal
    o p l = none := by
  induction l with
  | nil => rfl
  | cons r l ih =>
    unfold State.firstRefusal; rw [h r List.mem_cons_self]; exact ih fun x hx => h x (List.mem_cons_of_mem _ hx)

/-- The first slot that refuses. -/
theorem firstRefusal_some (s : State) (o p) (A : List SlotRef) (r : SlotRef) (B : List SlotRef) (e) (hA : ∀ r ∈ A,
    s.refuses o p r = none) (hr : s.refuses o p r = some e) :
    s.firstRefusal o p (A ++ r :: B) = some (r, e) := by
  induction A with
  | nil => rw [List.nil_append]; unfold State.firstRefusal; rw [hr]
  | cons x A ih =>
    rw [List.cons_append]; unfold State.firstRefusal; rw [hA x List.mem_cons_self]; exact ih fun y hy => hA y (List.mem_cons_of_mem _ hy)

/-- When a slot refuses a claim (R67). -/
theorem refuses_iff (s : State) (o p) (r : SlotRef) (e) : s.refuses o p r = some e ↔ (s.mapEntry r.1 r.2 = some e ∧
    e.owner ≠ o ∧ p ≤ e.prec) := by
  unfold State.refuses
  cases s.mapEntry r.1 r.2 with
  | none => simp
  | some e' =>
    simp only [Option.some.injEq]
    split
    · next h => simp only [Option.some.injEq]; constructor
                · rintro rfl; exact ⟨rfl, h⟩
                · exact fun h => h.1
    · next h => simp only [reduceCtorEq, false_iff]; rintro ⟨rfl, h2⟩; exact h h2

/-- An ascending list at one of its elements. -/
theorem split_of_sorted {l : List Nat} (hs : l.Pairwise (· < ·)) {x} (hx : x ∈ l) : ∃ A B, l = A ++ x :: B ∧ ∀ y ∈ A,
    y < x := by
  obtain ⟨A, B, rfl⟩ := List.append_of_mem hx
  exact ⟨A, B, rfl, fun y hy => (List.pairwise_append.mp hs).2.2 y hy x List.mem_cons_self⟩

/-- A claim at one of its slots: down before up, ascending. -/
theorem split_claimSlots (down up : List Nat) (d : Dir) (x : Nat) (h : (d, x) ∈ claimSlots down up) :
    ∃ A B, claimSlots down up = A ++ (d, x) :: B ∧ ∀ r ∈ A, (r.1 = d ∧ r.2 < x) ∨ (d = .up ∧ r.1 = .down) := by
  have hm := (mem_claimSlots down up d x).mp h
  unfold claimSlots
  cases d with
  | down =>
    obtain ⟨A, B, hl, hA⟩ := split_of_sorted (ascending_sorted down) ((mem_ascending down x).mpr hm)
    refine ⟨A.map (fun x => (Dir.down, x)), B.map (fun x => (Dir.down, x)) ++ (ascending up).map (fun x => (Dir.up, x)), by rw [hl]; simp, ?_⟩
    intro r hr; obtain ⟨y, hy, rfl⟩ := List.mem_map.mp hr; exact .inl ⟨rfl, hA y hy⟩
  | up =>
    obtain ⟨A, B, hl, hA⟩ := split_of_sorted (ascending_sorted up) ((mem_ascending up x).mpr hm)
    refine ⟨(ascending down).map (fun x => (Dir.down, x)) ++ A.map (fun x => (Dir.up, x)), B.map (fun x => (Dir.up, x)), by rw [hl]; simp, ?_⟩
    intro r hr
    rcases List.mem_append.mp hr with hr | hr
    · obtain ⟨y, hy, rfl⟩ := List.mem_map.mp hr; exact .inr ⟨rfl, rfl⟩
    · obtain ⟨y, hy, rfl⟩ := List.mem_map.mp hr; exact .inl ⟨rfl, hA y hy⟩

/-- A slot list names payload slots, each once. -/
theorem slotListOk_iff (l : List Nat) : slotListOk l = true ↔ (l.Nodup ∧ ∀ x ∈ l, 5 ≤ x ∧ x ≤ 47) := by
  unfold slotListOk isPayloadSlot; simp only [Bool.and_eq_true, List.all_eq_true, decide_eq_true_eq, Config.firstPayload, Config.slots]
  constructor
  · rintro ⟨h1, h2⟩; exact ⟨h2, fun x hx => ⟨(h1 x hx).1, by have := (h1 x hx).2; omega⟩⟩
  · rintro ⟨h1, h2⟩; exact ⟨fun x hx => ⟨(h2 x hx).1, by have := (h2 x hx).2; omega⟩, h1⟩

/-- Writing map entries leaves everything but the map. -/
theorem foldl_setEntry_frame (o : Owner) (prec : Nat) (rs : List SlotRef) (s : State) :
    let t : State := rs.foldl (fun s r => s.setEntry r.1 r.2 (some { owner := o, prec := prec })) s
    t.lanes = s.lanes ∧ t.circuits = s.circuits ∧ t.window = s.window ∧ t.rx = s.rx ∧ t.free = s.free ∧ t.rep = s.rep
      ∧ t.slots.reclaim = s.slots.reclaim := by
  induction rs generalizing s with
  | nil => exact ⟨rfl, rfl, rfl, rfl, rfl, rfl, rfl⟩
  | cons r rs ih =>
    obtain ⟨i1, i2, i3, i4, i5, i6, i7⟩ := ih (s.setEntry r.1 r.2 (some { owner := o, prec := prec }))
    exact ⟨i1.trans (by simp), i2.trans (by simp), i3.trans (by simp), i4.trans (by simp), i5.trans (by simp), i6.trans (by simp), i7.trans (by simp)⟩

/-- R68: a claim of slots without an owner has no loser. -/
theorem losses_of_unowned (s : State) (o : Owner) (rs : List SlotRef) (h : ∀ r ∈ rs, s.mapEntry r.1 r.2 = none) :
    s.losses o rs = [] := by
  unfold State.losses; rw [List.filterMap_eq_nil_iff]; intro r hr; rw [h r hr]

/-- R68: a claim of slots without an owner only writes the map. -/
theorem applyClaim_of_unowned (s : State) (o : Owner) (prec : Nat) (rs : List SlotRef) (h : ∀ r ∈ rs, s.mapEntry r.1
    r.2 = none) :
    s.applyClaim o prec rs = rs.foldl (fun s r => s.setEntry r.1 r.2 (some { owner := o, prec := prec })) s := by
  unfold State.applyClaim; rw [losses_of_unowned s o rs h]; rfl

/-- The slots an owner holds. -/
theorem mem_held (s : State) (o d x) : x ∈ s.held o d ↔ (5 ≤ x ∧ x ≤ 47) ∧ s.owns o d x := by
  unfold State.held State.owns; rw [List.mem_filter, List.mem_range'_1]; simp only [Config.firstPayload, Config.payloadSlots]
  have : ((s.mapEntry d x).any fun e => decide (e.owner = o)) = true ↔ ∃ e, s.mapEntry d x = some e ∧ e.owner = o := by
    cases s.mapEntry d x <;> simp
  rw [this]; constructor <;> rintro ⟨⟨a, b⟩, c⟩ <;> exact ⟨⟨a, by omega⟩, c⟩

/-- The slots an owner waits for. -/
theorem mem_waited (s : State) (o d x) : x ∈ s.waited o d ↔ WaitBy o s d x := by
  unfold State.waited WaitBy; rw [List.mem_map]; simp only [List.mem_filter, decide_eq_true_eq]
  constructor
  · rintro ⟨e, ⟨h1, h2, h3⟩, h4⟩; exact ⟨e, h1, h2, h3, h4⟩
  · rintro ⟨e, h1, h2, h3, h4⟩; exact ⟨e, ⟨h1, h2, h3⟩, h4⟩

/-- The claimed set of an owner. -/
theorem mem_claimed (s : State) (o d x) (hr : ∀ e ∈ s.slots.reclaim, 5 ≤ e.slot ∧ e.slot ≤ 47) : x ∈ s.claimed o d ↔
    (5 ≤ x ∧ x ≤ 47) ∧ ClaimedBy o s d x := by
  unfold State.claimed; rw [List.mem_append, mem_held, mem_waited]; unfold ClaimedBy
  constructor
  · rintro (h | h)
    · exact ⟨h.1, .inl h.2⟩
    · obtain ⟨e, h1, h2, h3, h4⟩ := h
      refine ⟨h4 ▸ hr e h1, .inr ⟨e, h1, h2, h3, h4⟩⟩
  · rintro ⟨h, h1 | h1⟩
    · exact .inl ⟨h, h1⟩
    · exact .inr h1

/-- A lane's new precedence stands in its map entries. -/
theorem mapEntry_setPrecedence (s : State) (l p : Nat) (c : Bool) (d : Dir) (x : Nat) : (s.setPrecedence l p
    c).mapEntry d x = (s.mapEntry d x).map (MapEntry.atPrec (.lane l) p) := by
  unfold State.mapEntry atSlot
  split
  · have : ((s.setPrecedence l p c).slots.side d) = (s.slots.side d).map (Option.map (MapEntry.atPrec (.lane l) p)) := by cases d <;> rfl
    rw [this, List.getElem?_map]
    cases (s.slots.side d)[x - Config.firstPayload]? with
    | none => rfl
    | some e => cases e <;> rfl
  · rfl

/-- A new precedence keeps the owner. -/
theorem MapEntry.atPrec_owner (o p) (e : MapEntry) : (e.atPrec o p).owner = e.owner := by unfold MapEntry.atPrec; split <;> rfl

/-- A new precedence keeps owner, direction and slot. -/
theorem ReclaimEntry.atPrec_keeps (o p) (e : ReclaimEntry) : (e.atPrec o p).owner = e.owner ∧ (e.atPrec o p).dir = e.dir ∧ (e.atPrec o p).slot = e.slot := by unfold ReclaimEntry.atPrec; split <;> exact ⟨rfl, rfl, rfl⟩

/-- What an accepted LANE.SET does (R73 to R76). -/
theorem applyLaneSet_spec (s : State) (l p : Nat) (c : Bool) (down up : List Nat) (hs : Shape s) (hl : l < 4) (hr : ∀
    e ∈ s.slots.reclaim, 5 ≤ e.slot ∧ e.slot ≤ 47) :
    let listed : Dir → List Nat := fun d => match d with | .down => down | .up => up
    let u := s.applyLaneSet l p c down up
    let fresh := fun d x => x ∈ listed d ∧ ¬ClaimedBy (.lane l) s d x
    (u.lane l).prec = p ∧ (u.lane l).cutThrough = c
    ∧ (∀ d x, 5 ≤ x → x ≤ 47 → (ClaimedBy (.lane l) u d x ↔ x ∈ listed d))
    ∧ (∀ d x, 5 ≤ x → x ≤ 47 → fresh d x → u.mapEntry d x = some { owner := .lane l, prec := p })
    ∧ (∀ k, k ≠ l → (u.lane k).prec = (s.lane k).prec ∧ (u.lane k).cutThrough = (s.lane k).cutThrough)
    ∧ (∀ d x e, x ∈ listed d → s.mapEntry d x = some e → e.owner = .lane l → u.mapEntry d x = some
      { owner := .lane l, prec := p })
    ∧ ((∀ d x, fresh d x → s.mapEntry d x = none) → (∀ d x, ClaimedBy (.lane l) s d x → x ∈ listed d) →
      u.circuits = s.circuits ∧ u.window = s.window ∧ u.rx = s.rx ∧ u.free = s.free ∧ u.rep = s.rep
      ∧ u.slots.reclaim = (s.slots.reclaim.map fun e => if e.owner = .lane l then { e with prec := p } else e)
      ∧ (∀ k, u.lane k = if k = l then { s.lane k with prec := p, cutThrough := c } else s.lane k)
      ∧ ∀ d x, x ∉ listed d → u.mapEntry d x = s.mapEntry d x) := by
  intro listed u fresh
  set o := Owner.lane l with ho
  have hu : u = ((((s.setPrecedence l p c).dropReclaim fun e => decide (e.owner = .lane l ∧ e.slot ∉ (match e.dir with | .down => down | .up => up))).applyClaim (.lane l) p (s.newSlots l down up)).freeSlots (.lane l) (s.droppedSlots l down up)) := rfl
  set s2 := ((s.setPrecedence l p c).dropReclaim fun e => decide (e.owner = .lane l ∧ e.slot ∉ (match e.dir with | .down => down | .up => up))) with hs2
  have m2 : ∀ d x, s2.mapEntry d x = (s.mapEntry d x).map (MapEntry.atPrec o p) := by
    intro d x; rw [← mapEntry_setPrecedence s l p c]; unfold State.mapEntry; cases d <;> rfl
  have r2 : s2.slots.reclaim = (s.slots.reclaim.map (ReclaimEntry.atPrec o p)).filter fun e => !decide (e.owner = .lane l ∧ e.slot ∉ (match e.dir with | .down => down | .up => up)) := rfl
  have len2 : s2.slots.down.length = 43 ∧ s2.slots.up.length = 43 := by
    constructor
    · show (s.slots.down.map _).length = 43; simp [hs.down]
    · show (s.slots.up.map _).length = 43; simp [hs.up]
  have H2 : ∀ d x, s2.owns o d x ↔ s.owns o d x := by
    intro d x; unfold State.owns; rw [m2]
    cases s.mapEntry d x with
    | none => simp
    | some e => simp [MapEntry.atPrec_owner]
  have W2 : ∀ d x, WaitBy o s2 d x ↔ (WaitBy o s d x ∧ x ∈ listed d) := by
    intro d x; unfold WaitBy; rw [r2]; simp only [List.mem_filter, List.mem_map]
    constructor
    · rintro ⟨e, ⟨⟨e0, h0, rfl⟩, hn⟩, h1, h2, h3⟩
      obtain ⟨q1, q2, q3⟩ := ReclaimEntry.atPrec_keeps o p e0
      rw [q1] at h1; rw [q2] at h2; rw [q3] at h3
      refine ⟨⟨e0, h0, h1, h2, h3⟩, ?_⟩
      rw [q1, q2, q3, h2, h3] at hn
      simp only [Bool.not_eq_true', decide_eq_false_iff_not, not_and, not_not] at hn
      have := hn (h1.trans ho); cases d <;> exact this
    · rintro ⟨⟨e0, h0, h1, h2, h3⟩, hx⟩
      obtain ⟨q1, q2, q3⟩ := ReclaimEntry.atPrec_keeps o p e0
      refine ⟨_, ⟨⟨e0, h0, rfl⟩, ?_⟩, q1.trans h1, q2.trans h2, q3.trans h3⟩
      rw [q1, q2, q3, h2, h3]
      simp only [Bool.not_eq_true', decide_eq_false_iff_not, not_and, not_not]
      intro _; cases d <;> exact hx
  have Wl : ∀ e ∈ s2.slots.reclaim, e.owner = o → e.slot ∈ listed e.dir := by
    intro e he h1; exact ((W2 e.dir e.slot).mp ⟨e, he, h1, rfl, rfl⟩).2
  have la2 : ∀ k, k ≠ l → s2.lane k = s.lane k := fun k hk => by
    show (State.modLane _ l _).lane k = _; rw [State.lane_modLane_ne _ _ _ _ hk]; rfl
  have la2l : s2.lane l = { s.lane l with prec := p, cutThrough := c } := by
    show (State.modLane _ l _).lane l = _; rw [State.lane_modLane_self _ _ _ (by show l < s.lanes.length; rw [hs.lanes]; exact hl)]; rfl
  have hnew : ∀ d x, (d, x) ∈ s.newSlots l down up ↔ (5 ≤ x ∧ x ≤ 47) ∧ fresh d x := by
    intro d x; unfold State.newSlots; rw [mem_claimSlots]
    have hc := fun h : 5 ≤ x ∧ x ≤ 47 => (mem_claimed s o d x hr)
    constructor
    · rintro ⟨h1, h2⟩
      refine ⟨h1, ?_⟩
      cases d <;> simp only [List.mem_filter, decide_eq_true_eq] at h2 <;> exact ⟨h2.1, fun h => h2.2 ((hc h1).mpr ⟨h1, h⟩)⟩
    · rintro ⟨h1, h2, h3⟩
      refine ⟨h1, ?_⟩
      cases d <;> simp only [List.mem_filter, decide_eq_true_eq] <;> exact ⟨h2, fun h => h3 ((hc h1).mp h).2⟩
  have hdrop : ∀ d x, (d, x) ∈ s.droppedSlots l down up ↔ (5 ≤ x ∧ x ≤ 47) ∧ s.owns o d x ∧ x ∉ listed d := by
    intro d x; unfold State.droppedSlots; rw [mem_claimSlots]
    constructor
    · rintro ⟨h1, h2⟩
      refine ⟨h1, ?_⟩
      cases d <;> simp only [List.mem_filter, decide_eq_true_eq, mem_held] at h2 <;> exact ⟨h2.1.2, h2.2⟩
    · rintro ⟨h1, h2, h3⟩
      refine ⟨h1, ?_⟩
      cases d <;> simp only [List.mem_filter, decide_eq_true_eq, mem_held] <;> exact ⟨⟨h1, h2⟩, h3⟩
  obtain ⟨c1, c2, c3, c4, c5, c6, c7⟩ := applyClaim_spec o p (s.newSlots l down up) (fun r hr => ((hnew r.1 r.2).mp hr).1) s2 len2
  set s3 := s2.applyClaim o p (s.newSlots l down up) with hs3
  have hin : ∀ r ∈ s.droppedSlots l down up, 5 ≤ r.2 ∧ r.2 ≤ 47 := fun r h => ((hdrop r.1 r.2).mp h).1
  obtain ⟨b1, b2, b3, b4, b5⟩ := freeSlots_spec o (s.droppedSlots l down up) (nodup_claimSlots _ _) hin s3 c6
  have hlu : u.lanes = s3.lanes := by rw [hu]; simp
  have hlane : ∀ k, u.lane k = s3.lane k := fun k => by unfold State.lane; rw [hlu]
  have CL2 : ∀ d x, ClaimedBy o s2 d x ↔ (s.owns o d x ∨ (WaitBy o s d x ∧ x ∈ listed d)) := by
    intro d x; unfold ClaimedBy; rw [H2, W2]
  have key : ∀ d x, x ∈ listed d → (d, x) ∉ s.droppedSlots l down up := fun d x h hm => ((hdrop d x).mp hm).2.2 h
  refine ⟨?_, ?_, fun d x h1 h2 => ⟨fun h => ?_, fun h => ?_⟩, fun d x h1 h2 hf => ?_, fun k hk => ?_, fun d x e hx h1 h2 => ?_, fun hA hB => ?_⟩
  · rw [hlane, (c5 l).1, la2l]
  · rw [hlane, (c5 l).2, la2l]
  · by_contra hx
    have hn2 : (d, x) ∉ s.newSlots l down up := fun hm => hx ((hnew d x).mp hm).2.1
    have noW : ∀ e ∈ s3.slots.reclaim, e.owner = o → e.dir = d → e.slot ≠ x := by
      intro e he h3 h4 h5; have := Wl e (c4 e he h3) h3; rw [h4, h5] at this; exact hx this
    rcases h with ⟨e, h3, h4⟩ | ⟨e, h3, h4, h5, h6⟩
    · by_cases hd : (d, x) ∈ s.droppedSlots l down up
      · have hheld : ∃ e, s3.mapEntry d x = some e ∧ e.owner = o := by
          obtain ⟨e', h5, h6⟩ := (H2 d x).mpr ((hdrop d x).mp hd).2.1
          exact ⟨e', c2 d x e' hn2 h5 h6, h6⟩
        rw [hu, b2 d x hd hheld] at h3
        cases hb : bestEntry (State.waitingAt s3 (d, x)) with
        | none => rw [hb] at h3; cases h3
        | some b =>
          rw [hb] at h3; simp only [Option.map_some, Option.some.injEq] at h3; subst h3
          have hm := List.mem_filter.mp (bestEntry_mem hb)
          have hdx : b.dir = d ∧ b.slot = x := by simpa using hm.2
          exact noW b hm.1 h4 hdx.1 hdx.2
      · rw [hu, b1 d x (.inl hd)] at h3
        have := (c3 d x).mp (.inl ⟨e, h3, h4⟩)
        rcases this with h5 | h5
        · exact hn2 h5
        · rcases (CL2 d x).mp h5 with h6 | h6
          · exact hd ((hdrop d x).mpr ⟨⟨h1, h2⟩, h6, hx⟩)
          · exact hx h6.2
    · exact noW e (b3 e h3) h4 h5 h6
  · have h3 : ClaimedBy o s3 d x := by
      apply (c3 d x).mpr
      by_cases hc : ClaimedBy o s d x
      · right; apply (CL2 d x).mpr
        rcases hc with hc | hc
        · exact .inl hc
        · exact .inr ⟨hc, h⟩
      · left; exact (hnew d x).mpr ⟨⟨h1, h2⟩, h, hc⟩
    rcases h3 with ⟨e, h4, h5⟩ | ⟨e, h4, h5, h6, h7⟩
    · exact .inl ⟨e, by rw [hu, b1 d x (.inl (key d x h))]; exact h4, h5⟩
    · by_cases hm : e ∈ u.slots.reclaim
      · exact .inr ⟨e, hm, h5, h6, h7⟩
      · have := b4 e h4 hm
        rw [h6, h7] at this
        exact .inl ⟨_, this, h5⟩
  · rw [hu, b1 d x (.inl (key d x hf.1))]
    exact c1 d x ((hnew d x).mpr ⟨⟨h1, h2⟩, hf⟩)
  · rw [hlane, (c5 k).1, (c5 k).2, la2 k hk]; exact ⟨rfl, rfl⟩
  · rw [hu, b1 d x (.inl (key d x hx))]
    have hn : (d, x) ∉ s.newSlots l down up := fun hm => ((hnew d x).mp hm).2.2 (.inl ⟨e, h1, h2⟩)
    refine c2 d x _ hn ?_ rfl
    rw [m2, h1]; simp only [Option.map_some, MapEntry.atPrec]; rw [if_pos h2]
    cases e; simp_all
  · have hd0 : s.droppedSlots l down up = [] := by
      rw [List.eq_nil_iff_forall_not_mem]; rintro ⟨d, x⟩ hm
      have := (hdrop d x).mp hm
      exact this.2.2 (hB d x (.inl this.2.1))
    have hz : ∀ r ∈ s.newSlots l down up, s2.mapEntry r.1 r.2 = none := by
      rintro ⟨d, x⟩ hm; rw [m2, hA d x ((hnew d x).mp hm).2]; rfl
    have hu3 : u = s3 := by rw [hu, hd0]; rfl
    have hs3' := applyClaim_of_unowned s2 o p _ hz
    obtain ⟨a1, -⟩ := setEntries_spec o p (s.newSlots l down up) (fun r hr => ((hnew r.1 r.2).mp hr).1) s2 len2
    obtain ⟨g1, g2, g3, g4, g5, g6, g7⟩ := foldl_setEntry_frame o p (s.newSlots l down up) s2
    rw [← hs3', ← hs3, ← hu3] at a1 g1 g2 g3 g4 g5 g6 g7
    refine ⟨g2.trans rfl, g3.trans rfl, g4.trans rfl, g5.trans rfl, g6.trans rfl, ?_, fun k => ?_, fun d x hx => ?_⟩
    · rw [g7, r2, List.filter_eq_self.mpr]
      · rfl
      · intro e he
        obtain ⟨e0, h0, rfl⟩ := List.mem_map.mp he
        obtain ⟨q1, q2, q3⟩ := ReclaimEntry.atPrec_keeps o p e0
        rw [q1, q2, q3]
        simp only [Bool.not_eq_true', decide_eq_false_iff_not, not_and, not_not]
        intro h1
        have := hB e0.dir e0.slot (.inr ⟨e0, h0, h1, rfl, rfl⟩)
        generalize e0.dir = dd at this ⊢
        cases dd <;> exact this
    · have : u.lane k = s2.lane k := by unfold State.lane; rw [g1]
      rw [this]
      by_cases hk : k = l
      · subst hk; rw [if_pos rfl, la2l]
      · rw [if_neg hk, la2 k hk]
    · have hn : (d, x) ∉ s.newSlots l down up := fun hm => hx ((hnew d x).mp hm).2.1
      refine (a1 d x).trans ?_
      rw [if_neg hn, m2]
      cases hm : s.mapEntry d x with
      | none => rfl
      | some e =>
        simp only [Option.map_some, MapEntry.atPrec]; rw [if_neg]
        intro h1; exact hx (hB d x (.inl ⟨e, hm, h1⟩))

/-- The steps of an accepted LANE.SET, one after another (R76). -/
theorem applyLaneSet_steps (s : State) (l p : Nat) (c : Bool) (down up : List Nat) (hs : Shape s) (hl : l < 4) (hr : ∀
    e ∈ s.slots.reclaim, 5 ≤ e.slot ∧ e.slot ≤ 47)
    (hin : ∀ d : Dir, ∀ x ∈ (match d with | .down => down | .up => up), 5 ≤ x ∧ x ≤ 47) :
    let listed : Dir → List Nat := fun d => match d with | .down => down | .up => up
    let fresh := fun d x => x ∈ listed d ∧ ¬ClaimedBy (.lane l) s d x
    let s2 := ((s.setPrecedence l p c).dropReclaim fun e => decide (e.owner = .lane l ∧ e.slot ∉ (match e.dir with | .down => down | .up => up)))
    (∀ d x, s2.mapEntry d x = (s.mapEntry d x).map fun e => if e.owner = .lane l then { e with prec := p } else e)
    ∧ s2.slots.reclaim = ((s.slots.reclaim.filter fun e => decide (e.owner ≠ .lane l ∨ e.slot ∈ listed e.dir)).map fun
      e => if e.owner = .lane l then { e with prec := p } else e)
    ∧ (∀ k, s2.lane k = if k = l then { s.lane k with prec := p, cutThrough := c } else s.lane k)
    ∧ ∃ s3, ClaimApplied (.lane l) p fresh s2 s3
      ∧ ∃ dropped : List SlotRef, InOrder dropped ∧ (∀ d x, (d, x) ∈ dropped ↔ s.owns (.lane l) d x ∧ x ∉ listed d)
        ∧ Through (LetsGo (.lane l)) dropped s3 (s.applyLaneSet l p c down up) := by
  intro listed fresh s2
  set o := Owner.lane l with ho
  have hs43 : s.slots.down.length = 43 ∧ s.slots.up.length = 43 := ⟨hs.down, hs.up⟩
  have m2 : ∀ d x, s2.mapEntry d x = (s.mapEntry d x).map (MapEntry.atPrec o p) := by
    intro d x; rw [← mapEntry_setPrecedence s l p c]; unfold State.mapEntry; cases d <;> rfl
  have len2 : s2.slots.down.length = 43 ∧ s2.slots.up.length = 43 := by
    constructor
    · show (s.slots.down.map _).length = 43; simp [hs.down]
    · show (s.slots.up.map _).length = 43; simp [hs.up]
  have hnew : ∀ d x, (d, x) ∈ s.newSlots l down up ↔ fresh d x := by
    intro d x; unfold State.newSlots; rw [mem_claimSlots]
    have hc := (mem_claimed s o d x hr)
    constructor
    · rintro ⟨h1, h2⟩
      cases d <;> simp only [List.mem_filter, decide_eq_true_eq] at h2 <;> exact ⟨h2.1, fun h => h2.2 (hc.mpr ⟨h1, h⟩)⟩
    · rintro ⟨h2, h3⟩
      refine ⟨hin d x h2, ?_⟩
      cases d <;> simp only [List.mem_filter, decide_eq_true_eq] <;> exact ⟨h2, fun h => h3 (hc.mp h).2⟩
  have hin2 : ∀ r ∈ s.newSlots l down up, 5 ≤ r.2 ∧ r.2 ≤ 47 := in_claimSlots _ _
  have hdrop : ∀ d x, (d, x) ∈ s.droppedSlots l down up ↔ s.owns o d x ∧ x ∉ listed d := by
    intro d x; unfold State.droppedSlots; rw [mem_claimSlots]
    constructor
    · rintro ⟨h1, h2⟩
      cases d <;> simp only [List.mem_filter, decide_eq_true_eq, mem_held_iff_owns hs43] at h2 <;> exact h2
    · rintro ⟨h2, h3⟩
      refine ⟨by obtain ⟨e, h4, -⟩ := h2; exact mapEntry_range hs43 h4, ?_⟩
      cases d <;> simp only [List.mem_filter, decide_eq_true_eq, mem_held_iff_owns hs43] <;> exact ⟨h2, h3⟩
  obtain ⟨c1, c2, c3, c4, c5, c6, c7⟩ := applyClaim_spec o p (s.newSlots l down up) hin2 s2 len2
  refine ⟨m2, ?_, fun k => ?_, s2.applyClaim o p (s.newSlots l down up), applyClaim_applied o p _ fresh hnew (claimSlots_inOrder _ _) hin2 s2 len2, s.droppedSlots l down up, claimSlots_inOrder _ _, hdrop, ?_⟩
  · show ((s.slots.reclaim.map (ReclaimEntry.atPrec o p)).filter fun e => !decide (e.owner = .lane l ∧ e.slot ∉ (match e.dir with | .down => down | .up => up))) = _
    rw [List.filter_map]
    refine congrArg (List.map (ReclaimEntry.atPrec o p)) ?_
    apply List.filter_congr; intro e _
    obtain ⟨q1, q2, q3⟩ := ReclaimEntry.atPrec_keeps o p e
    simp only [Function.comp, q1, q2, q3, ← ho, ← decide_not, not_and_or, not_not, listed]
  · by_cases hk : k = l
    · subst hk; rw [if_pos rfl]
      show (State.modLane _ k _).lane k = _; rw [State.lane_modLane_self _ _ _ (by show k < s.lanes.length; rw [hs.lanes]; exact hl)]; rfl
    · rw [if_neg hk]
      show (State.modLane _ l _).lane k = _; rw [State.lane_modLane_ne _ _ _ _ hk]; rfl
  · have h := freeSlots_through o (s.droppedSlots l down up) (nodup_claimSlots _ _) (in_claimSlots _ _) (s2.applyClaim o p (s.newSlots l down up)) c6
    rw [List.filter_eq_self.mpr] at h
    · exact h
    · rintro ⟨d, x⟩ hm
      rw [mapEntry_any_iff_owns]
      obtain ⟨⟨e, h1, h2⟩, h3⟩ := (hdrop d x).mp hm
      refine ⟨_, c2 d x (e.atPrec o p) (fun hh => h3 ((hnew d x).mp hh).1) (by rw [m2, h1]; rfl) (by rw [MapEntry.atPrec_owner]; exact h2), by rw [MapEntry.atPrec_owner]; exact h2⟩

/-- Two lists with the same elements. -/
theorem sameSet_iff (a b : List Nat) : sameSet a b = true ↔ ∀ x, x ∈ a ↔ x ∈ b := by
  unfold sameSet; simp only [Bool.and_eq_true, List.all_eq_true, decide_eq_true_eq]
  exact ⟨fun h x => ⟨h.1 x, h.2 x⟩, fun h => ⟨fun x => (h x).mp, fun x => (h x).mpr⟩⟩

/-- The flag octets (R189). -/
theorem flag?_isSome_iff (o : Octet) : (flag? o).isSome = true ↔ (o = 0x00#8 ∨ o = 0x01#8) := by
  unfold flag?; split
  · next h => simp [h]
  · next h => split
              · next h2 => simp [h2]
              · next h2 => simp [h, h2]

end Sys2Proof.Machine
end

