-- ==== Sys2Proof/Laws/DownPair.lean ====
section
/-! SUPPORT. The bits of a slot, and what the down pair carries in and out of a cycle (R1). -/

namespace Sys2Proof.Machine

/-- The eight bit times of a slot, most significant bit first. -/
theorem slotBits_eq (o : Octet) :
    slotBits o = [o.getLsbD 7, o.getLsbD 6, o.getLsbD 5, o.getLsbD 4, o.getLsbD 3, o.getLsbD 2, o.getLsbD 1, o.getLsbD 0] := rfl

/-- The bits of a slot are read back as the octet they were taken from. -/
theorem octetOfSlotBits_getLsbD (o : Octet) :
    octetOfSlotBits [o.getLsbD 7, o.getLsbD 6, o.getLsbD 5, o.getLsbD 4, o.getLsbD 3, o.getLsbD 2, o.getLsbD 1, o.getLsbD 0]
      = o := octetOfBits_getLsbD o

/-- Bit time `b` of a slot carries bit 7 - b of its octet. -/
theorem slotBits_getElem? (o : Octet) (b : Nat) (hb : b < 8) : (slotBits o)[b]? = some (o.getLsbD (7 - b)) := by
  match b, hb with
  | 0, _ | 1, _ | 2, _ | 3, _ | 4, _ | 5, _ | 6, _ | 7, _ => rfl

/-- In a cycle the down pair carries the driven octets, and the marker with the first bit of slot 0 alone. -/
theorem downPair_inCycle (s : State) (hp : s.pin = .high) (ho : s.line.cycleOpen = true)
    (hl : s.line.state = .starting ∨ s.line.state = .running) :
    (∀ n b o, s.line.driven[n]? = some o → b < 8 → s.downBit n b = o.getLsbD (7 - b))
      ∧ ∀ n b, s.downMarker n b = true ↔ n = 0 ∧ b = 0 := by
  have hc : s.inCycle = true := by simp [State.inCycle, hp, ho, hl]
  exact ⟨fun n b o hd hb => by simp [State.downBit, hc, hd, slotBits_getElem? o b hb],
    fun n b => by simp [State.downMarker, hc]⟩

/-- While no cycle runs the down pair carries ones and no marker. -/
theorem downPair_undriven (s : State)
    (h : s.pin ≠ .high ∨ s.line.cycleOpen = false ∨ s.line.state = .stopped ∨ s.line.state = .faulted) (n b : Nat) :
    s.downBit n b = true ∧ s.downMarker n b = false := by
  have hc : s.inCycle = false := by
    rw [Bool.eq_false_iff]; simp only [State.inCycle, ne_eq, decide_eq_true_eq]
    rintro ⟨a, b, c⟩
    rcases h with h | h | h | h <;> simp_all
  simp [State.downBit, State.downMarker, hc, undrivenBit]

end Sys2Proof.Machine
end

