-- ==== Sys2Proof/Tests/Slice0.lean ====
section
/-! SUPPORT. Tests: the ill-formed commands that the check refuses, one small step for the commands, and, for every statement
with hypotheses, a state and operands that meet them, clause by clause. -/

-- each test waits for the kernel: one after the other
set_option Elab.async false

namespace Sys2Proof.Tests

open Sys2Proof.Machine

/-! ## Well-formed commands -/

/-- The requests of the table, as functions of tag and body. -/
def requests : List (Octet → List Octet → Instr) :=
  [.lineStart, .lineStop, .lineSet, .stats, .stationEnrol, .stationWithdraw, .stationBar, .stationUnbar, .stationBind,
    .stationRead, .noteSend, .noteCancel, .laneSet, .circuitOpen, .circuitClose, .slotMap, .packetSend, .packetAdd,
    .packetCancel, .laneReset, .laneRead, .mailboxSet, .mailboxTake, .mailboxFlush, .reportAck, .reportResend, .linkSet,
    .linkHello, .deviceRestart, .unknownRequest 0x1E#8]

theorem test_body_of_560_octets_is_wellFormed :
    requests.all (fun c => (c 0 (List.replicate 560 0)).wellFormed) = true := by decide +kernel

theorem test_body_of_561_octets_is_illFormed :
    requests.all (fun c => !(c 0 (List.replicate 561 0)).wellFormed) = true := by decide +kernel

theorem test_unknown_request_of_a_request_kind_is_illFormed :
    (Instr.unknownRequest 0x01#8 0 []).wellFormed = false ∧ (Instr.unknownRequest 0x1D#8 0 []).wellFormed = false
      ∧ (Instr.unknownRequest 0x00#8 0 []).wellFormed = true := by decide +kernel

theorem test_readback_of_slot_48_is_illFormed :
    (Instr.cycleEnd true [(48, 0)]).wellFormed = false ∧ (Instr.readbackFault true [(48, 0)]).wellFormed = false
      ∧ (Instr.cycleEnd true [(47, 0)]).wellFormed = true ∧ (Instr.readbackFault true [(0, 0)]).wellFormed = true := by
  decide +kernel

/-- The slot events, as functions of the slot. -/
def slotEvents : List (Nat → Instr) :=
  [fun x => .windowUpOctet x 0, fun x => .circuitUpOctet x 0, .circuitDownSlot, .laneDownSlotTurn, fun x => .windowEmpty x 0]

theorem test_header_slot_is_illFormed :
    slotEvents.all (fun c => !(c 4).wellFormed && !(c 48).wellFormed && (c 5).wellFormed && (c 47).wellFormed) = true := by
  decide +kernel

theorem test_gapEnd_of_lane_4_is_illFormed :
    (Instr.gapEnd 4).wellFormed = false ∧ (Instr.gapEnd 3).wellFormed = true := by decide +kernel

/-- No row gives bits: no word spells a command, and the queue is left as it is. -/
theorem test_no_word_spells_a_command : decodeTableWord 8 0x01 = none ∧ State.reset.withFetchWord 8 0x01 = State.reset := by
  decide +kernel

/-! ## The check of packets and frames (R119, R160) -/

theorem test_check_of_the_nine_digits :
    crc [0x31#8, 0x32#8, 0x33#8, 0x34#8, 0x35#8, 0x36#8, 0x37#8, 0x38#8, 0x39#8] = 0x29B1#16 := by decide +kernel

theorem test_check_over_its_own_octets_ends_zero :
    crc [0x31#8, 0x32#8, 0x33#8, 0x34#8, 0x35#8, 0x36#8, 0x37#8, 0x38#8, 0x39#8, 0x29#8, 0xB1#8] = 0#16 := by
  decide +kernel

/-! ## Characters (R158) -/

theorem test_character_of_letter_A :
    characterLevels 0x41#8 = [false, true, false, false, false, false, false, true, false, true]
      ∧ readCharacter [false, true, false, false, false, false, false, true, false, true] = some (0x41#8, true)
      ∧ readCharacter [false, false, false, false, false, false, false, false, false, false] = some (0x00#8, false)
      ∧ readCharacter (List.replicate 10 true) = none := by decide +kernel

/-- The part sends PART_READY after reset: its first character is D5h, and the line is high between characters. -/
theorem test_transmit_line_after_reset :
    (List.range 10).map (fun b => State.reset.transmitLevel (some (0, b)))
        = [false, true, false, true, false, true, false, true, true, true]
      ∧ State.reset.transmitLevel none = true ∧ State.reset.transmitLevel (some (100, 0)) = true := by decide +kernel

/-- Of a frame that was cut off only the character in progress is still on the line, at its place (R168). -/
theorem test_transmit_line_after_a_cut :
    (let cut : State :=
      { State.reset with link := { State.reset.link with tx := .idle, rxLow := true, finishing := some (3, 0x41#8) } }
     (List.range 10).map (fun b => cut.transmitLevel (some (3, b)))
        = [false, true, false, false, false, false, false, true, false, true]
      ∧ (List.range 10).map (fun b => cut.transmitLevel (some (4, b))) = List.replicate 10 true
      ∧ cut.transmitLevel none = true) := by decide +kernel

/-! ## Handles (R50, R121) -/

/-- Live numbers are skipped, past the wrap from 65535 to 1; 0 is never given. -/
theorem test_next_handle_skips_live :
    nextHandle [65535, 1, 2] 65534 = 3 ∧ nextHandle [] 0 = 1 ∧ nextHandle [5] 65535 = 1 ∧ nextHandle [4, 6] 3 = 5 := by
  decide +kernel

/-! ## The bits of a slot (R1) -/

theorem test_bits_of_a_slot :
    slotBits 0x26#8 = [false, false, true, false, false, true, true, false]
      ∧ octetOfSlotBits [false, false, true, false, false, true, true, false] = 0x26#8
      ∧ octetOfSlotBits (List.replicate 8 undrivenBit) = idleOctet := by decide +kernel

/-! ## Small states -/

/-- The next state of a command satisfies `p`. -/
def gives (c : Instr) (s : State) (p : State → Bool) : Bool :=
  match exec c s with
  | .next t => p t
  | .fault _ | .refused _ => false

/-- The line in a state, with a cycle in progress or not. -/
def onLine (st : LineState) (cycle : Bool) (s : State) : State :=
  { s with line := { s.line with state := st, cycleOpen := cycle } }

/-- The line engine changed. -/
def modLine (f : LineEngine → LineEngine) (s : State) : State := { s with line := f s.line }

/-- Station `a` in a state. -/
def put (a : Nat) (st : StationState) (s : State) : State := s.modStation a fun t => { t with state := st }

/-- The host link changed. -/
def modLink (f : HostLink → HostLink) (s : State) : State := { s with link := f s.link }

/-- The report unit changed. -/
def modRep (f : ReportUnit → ReportUnit) (s : State) : State := { s with rep := f s.rep }

/-- The call of the cycle. -/
def calling (c : Call) (s : State) : State := { s with poll := { s.poll with call := c } }

/-- The Note Store and the call-out record. -/
def withNotes (store : List Note) (c : Option CallOut) (s : State) : State :=
  { s with notes := { s.notes with store := store, callOut := c } }

/-- The window unit. -/
def withWindow (w : Option Window) (queue : List Nat) (s : State) : State :=
  { s with window := { s.window with window := w, queue := queue } }

/-- A slot sampled to an owner in both directions. -/
def sampled (slot : Nat) (o : Owner) (s : State) : State :=
  { s with
    line :=
      { s.line with
        sampleDown := s.line.sampleDown.set (slot - 5) (some o), sampleUp := s.line.sampleUp.set (slot - 5) (some o) } }

/-- The queue and the engine of a lane. -/
def withLane (l : Nat) (e : EngineState) (active : List Nat) (q : List Packet) (s : State) : State :=
  s.modLane l fun x => { x with engine := e, activeSet := active, queue := q }

/-- A packet. -/
def packet (handle : Nat) (st : PacketState) (body : List Octet) (declared : Nat) (position : Nat) : Packet :=
  { handle := handle, destination := 1, port := 0x20#8, declared := declared, body := body, position := position
    state := st, abortReason := if st = .aborting then some .cancel else none, bodySent := 0 }

/-- A note. -/
def note (handle a : Nat) (octets : List Octet) (next : Nat) (st : NoteState) : Note :=
  { handle := handle, station := a, octets := octets, nextIndex := next, state := st }

/-- A completion of a note, of a packet. -/
def noteDone (handle : Nat) : Completion :=
  .note { handle := handle, station := 1, outcome := .delivered, length := 1, acknowledged := 1, cycle := 0 }
def packetDone (handle : Nat) : Completion :=
  .packet
    { handle := handle, lane := 0, destination := 1, port := 0, declared := 0, outcome := .sent, reason := none
      bodySent := 0, received := 0, cycle := 0 }

/-- A window of station `a` on lane 0 over slot 5. -/
def window (a : Nat) (started : Bool) (idle : Nat) : Window :=
  { owner := a, lane := 0, upSet := [5], cyclesUsed := 1, packetStarted := started, idleRun := idle }

/-- A circuit over slot 9 up and slot 10 down. -/
def circuit (source : Nat) (st : CircuitState) (collects : Bool) : Circuit :=
  { source := source, up := [9], down := [10], prec := 2, state := st, incoming := [none], outgoing := [some 0x41#8]
    collects := collects }

/-- The receiver in a state with a record. -/
def receiving (st : ReceiverState) (r : ReceiveRecord) (s : State) : State :=
  { s with rx := { s.rx with state := st, record := r } }

/-- A record past its header: port 20h, station 1. -/
def headed (length taken : Nat) : ReceiveRecord :=
  { ReceiveRecord.empty with
    port := some 0x20#8, station := some 0x01#8, lengthHigh := some 0x00#8, length := some length, taken := taken
    mailbox := some 0, matchKind := some .a }

/-- A filter that takes every port. -/
def takesAll : Filter :=
  { enabled := true, mode := .all, portA := 0, portB := 0, general := false, restriction := none }

/-- A record in a mailbox. -/
def mail : MailRecord := { source := 1, port := 0x20#8, matchKind := .all, length := 1, stamp := 0, body := [0x55#8] }

/-- Mailbox 0 with the filter and the records. -/
def withMail (f : Filter) (r : List MailRecord) (s : State) : State :=
  s.modMailbox 0 fun b => { b with filter := f, records := r }

/-- A request that finds no other frame can be taken. -/
theorem canTake (s : State) (f : Frame)
    (h : s.pin = .high ∧ s.link.hold = none ∧ s.link.replies.length < 4 ∧ s.link.intake = [] ∧ s.link.rxLow = false) :
    CanTake s f :=
  ⟨h.1, h.2.1, h.2.2.1, .inr h.2.2.2⟩

/-- Every request can be taken right after reset. -/
theorem canTake_reset (f : Frame) : CanTake State.reset f := canTake _ f (by decide +kernel)

/-- The sizes of the tables, as a check. -/
def shapeOk (s : State) : Bool :=
  decide
    (s.poll.stations.length = 30 ∧ s.slots.down.length = 43 ∧ s.slots.up.length = 43 ∧ s.circuits.length = 12
      ∧ s.lanes.length = 4 ∧ s.mailboxes.length = 8 ∧ s.line.driven.length = 48)

theorem shape (s : State) (h : shapeOk s = true) : Shape s := by
  have h' := of_decide_eq_true h
  exact ⟨h'.1, h'.2.1, h'.2.2.1, h'.2.2.2.1, h'.2.2.2.2.1, h'.2.2.2.2.2.1, h'.2.2.2.2.2.2⟩

/-- The handles, as a check. -/
def handlesOk (s : State) : Bool :=
  decide
    (s.liveNotes.Nodup ∧ s.livePackets.Nodup ∧ s.placesHeld ≤ 96
      ∧ ∀ n ∈ s.notes.store, 1 ≤ n.station ∧ n.station ≤ 30)

theorem handles (s : State) (h : handlesOk s = true) : LiveHandles s := by
  have h' := of_decide_eq_true h
  exact ⟨h'.1, h'.2.1, h'.2.2.1, h'.2.2.2⟩

/-- The window unit of a state with no window and no packet coming in. -/
theorem noWindow (s : State) (h : s.window.window = none ∧ s.window.queue = [] ∧ s.rx.state = .idle) : WindowSound s := by
  obtain ⟨h₁, h₂, h₃⟩ := h
  exact
    ⟨by simp [h₂], by simp [h₂], by simp [h₁], fun _ => ⟨h₁, h₂⟩, fun h => absurd h₃ h⟩

/-! ## One small step -/

theorem test_lineStart : gives (.lineStart 7 []) State.reset (fun t => decide (t.line.state = .starting
    ∧ t.line.driven = quietCycle ∧ t.link.replies = [⟨0x81#8, 7, [0x00#8]⟩]
    ∧ t.rep.queue = [.lineState .starting .stopped .request 0])) = true := by decide +kernel

/-- Cycle 0 carries call address 0 and the marker at its first bit; before it the down pair carries ones. -/
theorem test_down_pair_of_cycle_0 : gives (.lineStart 7 []) State.reset (fun t =>
    (List.range 8).map (t.downBit 0) == List.replicate 8 false && (List.range 8).map (t.downBit 1) == List.replicate 8 true
      && t.downMarker 0 0 && !t.downMarker 0 1 && !t.downMarker 1 0
      && State.reset.downBit 0 0 && !State.reset.downMarker 0 0) = true := by decide +kernel

theorem test_stationEnrol : gives (.stationEnrol 7 [0x1E#8, 0x03#8]) State.reset (fun t => decide
    ((t.station 30).state = .offline ∧ (t.station 30).lane = 3)) = true := by decide +kernel

theorem test_noteSend : gives (.noteSend 7 [0x01#8, 0xAA#8]) (put 1 .offline State.reset) (fun t => decide
    (t.notes.store = [note 1 1 [0xAA#8] 0 .queued] ∧ t.link.replies = [⟨0x8B#8, 7, [0x00#8, 0x00#8, 0x01#8]⟩])) = true := by
  decide +kernel

theorem test_laneSet : gives (.laneSet 7 (laneSetBody 0 2 true [5, 6] [47])) State.reset (fun t => decide
    (t.held (.lane 0) .down = [5, 6] ∧ t.held (.lane 0) .up = [47] ∧ (t.lane 0).prec = 2
      ∧ t.mapEntry .up 47 = some { owner := .lane 0, prec := 2 })) = true := by decide +kernel

theorem test_circuitOpen : gives (.circuitOpen 7 (circuitOpenBody 1 2 [9] [10])) (put 1 .online State.reset) (fun t => decide
    ((t.circuit 0).map (·.state) = some .live ∧ t.mapEntry .up 9 = some { owner := .circuit 0, prec := 2 }
      ∧ t.link.replies = [⟨0x8E#8, 7, [0x00#8, 0x00#8, 0x00#8]⟩])) = true := by decide +kernel

theorem test_packetSend : gives (.packetSend 7 (packetSendBody 2 1 0x20#8 33 [])) State.reset (fun t => decide
    (t.free = 254 ∧ (t.lane 2).queue.map (·.state) = [.filling] ∧ t.lastPacketHandle = 1)) = true := by decide +kernel

theorem test_linkHello : gives (.linkHello 7 []) State.reset (fun t => decide
    (t.link.replies.map (·.body.length) = [30])) = true := by decide +kernel

theorem test_bid_of_station_4 : gives (.bidArrival 0x26#8) (put 4 .online (onLine .running true State.reset)) (fun t => decide
    (t.window.queue = [4])) = true := by decide +kernel

theorem test_silence_is_no_bid : gives (.bidArrival 0xFF#8) (onLine .running true State.reset) (fun t => decide
    (t.window = State.reset.window)) = true := by decide +kernel

theorem test_resync : gives .linkResync (modLink (fun l => { l with intake := [⟨0x1C#8, 1, []⟩] }) State.reset) (fun t =>
    decide (t.link.intake = [] ∧ t.rep.window = [] ∧ t.rep.queue = [.partReady .powerOn])) = true := by decide +kernel

theorem test_hello_on_the_wire : gives (.rxCharacter 0xD5#8 true) State.reset (fun t => decide
    (t.link.framer.state = .length)) = true := by decide +kernel

/-! ## Witnesses: the part, requests in general, the host link -/

theorem witness_StepTakesFrontCommand : State.reset.pending = [] := rfl

theorem witness_ResetsGiveResetState :
    State.reset.pin = .high ∧ ({ State.reset with pin := .low .pin } : State).pin = .low .pin := ⟨rfl, rfl⟩

theorem witness_RequestAnsweredOnce :
    ((Instr.stats 7 []).frame? = some ⟨0x04#8, 7, []⟩ ∧ CanTake State.reset ⟨0x04#8, 7, []⟩)
      ∧ ¬CanTake (modLink (fun l => { l with hold := some .restart }) State.reset) ⟨0x04#8, 7, []⟩
      ∧ ((Instr.unknownRequest 0x00#8 7 []).frame? = some ⟨0x00#8, 7, []⟩ ∧ CanTake State.reset ⟨0x00#8, 7, []⟩)
      ∧ (Instr.unknownRequest 0x1E#8 7 []).frame? = some ⟨0x1E#8, 7, []⟩
      ∧ ((Instr.lineStart 7 [0x00#8]).frame? = some ⟨0x01#8, 7, [0x00#8]⟩ ∧ bodySizeOk 0x01#8 [0x00#8] = false)
      ∧ ((Instr.deviceRestart 7 [0x00#8]).frame? = some ⟨0x1D#8, 7, [0x00#8]⟩ ∧ bodySizeOk 0x1D#8 [0x00#8] = false) :=
  ⟨⟨rfl, canTake_reset _⟩, fun h => (Option.some_ne_none _ h.2.1).elim, ⟨rfl, canTake_reset _⟩, rfl, ⟨rfl, rfl⟩, ⟨rfl, rfl⟩⟩

theorem witness_HelloAnswersIdentity : CanTake State.reset ⟨0x1C#8, 7, []⟩ := canTake_reset _

/-- The transmitter sends the one reply, with a request held. -/
def sendingReply (h : Option Hold) : State :=
  modLink (fun l => { l with tx := .reply, replies := [⟨0x9B#8, 7, [0x00#8, 0x02#8]⟩], hold := h }) State.reset

theorem witness_RateChangesAfterReply :
    CanTake State.reset ⟨0x1B#8, 7, [0x04#8]⟩
      ∧ (CanTake State.reset ⟨0x1B#8, 7, [0x00#8]⟩ ∧ (0x00#8 : Octet).toNat = State.reset.link.rate)
      ∧ (CanTake State.reset ⟨0x1B#8, 7, [0x03#8]⟩ ∧ (0x03#8 : Octet).toNat ≠ State.reset.link.rate)
      ∧ ((sendingReply (some (.linkSet 2))).pin = .high ∧ (sendingReply (some (.linkSet 2))).link.tx = .reply
        ∧ (sendingReply (some (.linkSet 2))).link.replies = [⟨0x9B#8, 7, [0x00#8, 0x02#8]⟩]
        ∧ (sendingReply (some (.linkSet 2))).link.hold = some (.linkSet 2))
      ∧ State.reset.link.tx ≠ .reply :=
  ⟨canTake_reset _, ⟨canTake_reset _, rfl⟩, ⟨canTake_reset _, by decide⟩, ⟨rfl, rfl, rfl, rfl⟩, by decide⟩

theorem witness_RestartTakesEffectAfterReply :
    CanTake State.reset ⟨0x1D#8, 7, []⟩
      ∧ ((sendingReply (some .restart)).pin = .high ∧ (sendingReply (some .restart)).link.tx = .reply
        ∧ (sendingReply (some .restart)).link.replies = [⟨0x9B#8, 7, [0x00#8, 0x02#8]⟩]
        ∧ (sendingReply (some .restart)).link.hold = some .restart)
      ∧ State.reset.link.hold ≠ some .restart :=
  ⟨canTake_reset _, ⟨rfl, rfl, rfl, rfl⟩, by decide⟩

/-- The framer after `buffer`, with `n` frames in the intake. -/
def framing (st : FramerState) (escape : Bool) (buffer : List Octet) (n : Nat) : State :=
  modLink
    (fun l =>
      { l with
        framer := { state := st, escape := escape, buffer := buffer }, intake := List.replicate n ⟨0x1C#8, 7, []⟩ })
    State.reset

/-- The octets of a LINK.HELLO after its start octet, the second check octet apart. -/
def helloOctets : List Octet := [0x00#8, 0x02#8, 0x1C#8, 0x07#8, hi8 (crc [0x00#8, 0x02#8, 0x1C#8, 0x07#8])]

/-- The second check octet of that LINK.HELLO. -/
def helloEnd : Octet := lo8 (crc [0x00#8, 0x02#8, 0x1C#8, 0x07#8])

/-- What the clauses of CharactersFramed on one data octet need: the framer's state, and the buffer with the octet. -/
theorem witness_CharactersFramed_data :
    ((framing .length false [] 0).link.framer.state = .length ∧ ([] ++ [0xD4#8] : List Octet).length < 2)
      ∧ ((framing .length true [0x00#8] 0).link.framer.escape = true
        ∧ nat16 0x00#8 0xD5#8 ≤ 562 ∧ nat16 0x00#8 0x01#8 < 2 ∧ 562 < nat16 0x02#8 0x33#8)
      ∧ (2 ≤ nat16 0x00#8 0x02#8 ∧ nat16 0x02#8 0x32#8 ≤ 562)
      ∧ ((framing .content false [0x00#8, 0x02#8] 0).link.framer.state = .content
        ∧ ([0x00#8, 0x02#8] ++ [0x1C#8] : List Octet).length < nat16 0x00#8 0x02#8 + 2
        ∧ nat16 0x00#8 0x02#8 + 2 ≤ ([0x00#8, 0x02#8, 0x1C#8] ++ [0x07#8] : List Octet).length)
      ∧ ((framing .check false (helloOctets.take 4) 0).link.framer.state = .check
        ∧ (helloOctets.take 4 ++ [0xD7#8]).length < nat16 0x00#8 0x02#8 + 4)
      ∧ (nat16 0x00#8 0x02#8 + 4 ≤ (helloOctets ++ [helloEnd]).length
        ∧ (helloOctets ++ [helloEnd]).drop 4
          = [hi8 (crc ((helloOctets ++ [helloEnd]).take 4)), lo8 (crc ((helloOctets ++ [helloEnd]).take 4))]
        ∧ (helloOctets ++ [helloEnd + 1]).drop 4
          ≠ [hi8 (crc ((helloOctets ++ [helloEnd + 1]).take 4)), lo8 (crc ((helloOctets ++ [helloEnd + 1]).take 4))]
        ∧ helloEnd ≠ 0xD5#8 ∧ helloEnd ≠ 0xD6#8)
      ∧ (framing .check false helloOctets 3).link.intake.length < 4
      ∧ 4 ≤ (framing .check false helloOctets 4).link.intake.length := by decide +kernel

theorem witness_CharactersFramed :
    (modLink (fun l => { l with rxLow := true }) State.reset).link.rxLow = true
      ∧ (State.reset.pin = .high ∧ State.reset.link.rxLow = false ∧ State.reset.link.framer.state = .hunt)
      ∧ (framing .content false [0x00#8, 0x02#8] 0).link.framer.state ≠ .hunt
      ∧ ((framing .content true [0x00#8, 0x02#8] 0).link.framer.escape = true ∧ (0xD4#8 : Octet) ≠ 0xD5#8
        ∧ (0xF4#8 : Octet) ≠ 0xF5#8 ∧ (0xF7#8 : Octet) ≠ 0xF6#8)
      ∧ (framing .content false [0x00#8, 0x02#8] 0).link.framer.escape = false := by decide +kernel

theorem witness_FramerTakesWire :
    State.reset.link.tx = .report partReadyFrame ∧ partReadyFrame.wire[0]? = some 0xD5#8
      ∧ ((sendingReply none).link.tx = .reply
        ∧ (sendingReply none).link.replies.head? = some ⟨0x9B#8, 7, [0x00#8, 0x02#8]⟩
        ∧ (⟨0x9B#8, 7, [0x00#8, 0x02#8]⟩ : Frame).wire[1]? = some 0x00#8)
      ∧ ((modLink (fun l => { l with tx := .idle }) State.reset).link.tx = .idle
        ∧ (modLink (fun l => { l with tx := .idle }) State.reset).link.finishing = none)
      ∧ ((modLink (fun l => { l with tx := .idle, rxLow := true, finishing := some (3, 0x41#8) }) State.reset).link.tx = .idle
        ∧ (modLink (fun l => { l with tx := .idle, rxLow := true, finishing := some (3, 0x41#8) }) State.reset).link.finishing
          = some (3, 0x41#8))
      ∧ (⟨0x1C#8, 7, List.replicate 560 0xD5#8⟩ : Frame).body.length ≤ 560
      ∧ (framing .hunt false [] 3).link.framer.state = .hunt ∧ (framing .hunt false [] 3).link.intake.length < 4 := by
  decide +kernel

theorem witness_BreakResyncsLink :
    (State.reset.pin = .high ∧ State.reset.link.rxLow = false)
      ∧ ((modLink (fun l => { l with rxLow := true }) State.reset).pin = .high
        ∧ (modLink (fun l => { l with rxLow := true }) State.reset).link.rxLow = true)
      ∧ State.reset.link.txFrame = some partReadyFrame
      ∧ ((sendingReply none).link.txFrame = some ⟨0x9B#8, 7, [0x00#8, 0x02#8]⟩ ∧ (sendingReply none).link.rxLow = false)
      ∧ (modLink (fun l => { l with tx := .idle }) State.reset).link.txFrame = none := by decide +kernel

/-- The transmitter idle, with replies and reports waiting. -/
def idling (replies : List Frame) (queue : List Report) : State :=
  modRep (fun u => { u with queue := queue }) (modLink (fun l => { l with tx := .idle, replies := replies }) State.reset)

theorem witness_TransmitterStartsFrames :
    (idling [] []).link.tx = .idle
      ∧ (State.reset.pin = .high ∧ State.reset.link.tx = .report partReadyFrame)
      ∧ ((sendingReply none).pin = .high ∧ (sendingReply none).link.tx = .reply ∧ (sendingReply none).link.hold = none)
      ∧ ((idling [] []).pin = .high ∧ (idling [] []).link.rxLow = false ∧ (idling [] []).link.replies = [])
      ∧ ((idling [⟨0x84#8, 7, []⟩] [.lineQuiet 8 8]).link.replies ≠ []
        ∧ (idling [⟨0x84#8, 7, []⟩] [.lineQuiet 8 8]).rep.window.length < 8
        ∧ (idling [⟨0x84#8, 7, []⟩] [.lineQuiet 8 8]).rep.queue ≠ [])
      ∧ (State.reset.link.tx ≠ .idle ∧ (modLink (fun l => { l with rxLow := true }) State.reset).link.rxLow = true) := by
  decide +kernel

/-- A command whose state has one thing to send: an event of a RUNNING cycle with a report waiting, no reply. -/
theorem witness_TransmitterStartsFrames_tie :
    Gives (.bidArrival 0xFF#8) (onLine .running true (idling [] [.lineQuiet 8 8]))
        (onLine .running true (idling [] [.lineQuiet 8 8]))
      ∧ ¬((onLine .running true (idling [] [.lineQuiet 8 8])).link.replies ≠ []) :=
  ⟨⟨_, rfl, State.arbitrate_settles _, State.arbitrate_chooses _⟩, by decide⟩

/-! ## Witnesses: reports -/

/-- A report unit with `n` reports in its queue. -/
def holding (n : Nat) : ReportUnit := { ReportUnit.fresh .pin with queue := List.replicate n (.lineQuiet 8 8) }

theorem witness_ReportsQueuedAndTransferred :
    coalesce [.mailWaiting 0 1 0 1 0] (.mailWaiting 0 2 0 1 0) = some [.mailWaiting 0 1 0 1 0]
      ∧ (coalesce (holding 63).queue (.lineQuiet 8 8) = none
        ∧ (holding 63).queue.length + (holding 63).window.length < 64)
      ∧ (coalesce (holding 64).queue (.lineQuiet 8 8) = none
        ∧ 64 ≤ (holding 64).queue.length + (holding 64).window.length)
      ∧ (0 < 64 - ((holding 63).queue.length + (holding 63).window.length)
        ∧ 0 < ({ holding 63 with lostCount := 1 } : ReportUnit).lostCount)
      ∧ 64 - ((holding 64).queue.length + (holding 64).window.length) = 0 := by decide +kernel

theorem witness_UnsentReportsCoalesce :
    [Report.condition 1 2 none 0 0].countP (Report.isConditionOf 1) ≤ 1
      ∧ ([Report.condition 2 2 none 0 0].countP (Report.isConditionOf 1) = 0
        ∧ ([] : List Report).countP (Report.isConditionOf 1) = 0)
      ∧ [Report.mailWaiting 1 1 0 1 0].countP (Report.isMailWaitingOf 0) = 0
      ∧ 0 < [Report.mailWaiting 0 1 0 1 0].countP (Report.isMailWaitingOf 0)
      ∧ [Report.mailDropped 1 1 0 1 0 0].countP (Report.isMailDroppedOf 0) = 0
      ∧ [Report.lineQuiet 8 8].countP Report.isLinkFault = 0 := by decide +kernel

theorem witness_UnsentReportsCoalesce_handOver :
    (coalesce [.mailWaiting 0 1 0 1 0] (.mailWaiting 0 2 0 1 1) = some [.mailWaiting 0 1 0 1 0])
      ∧ (coalesce State.reset.rep.queue (.lineQuiet 8 8) = none
        ∧ State.reset.rep.queue.length + State.reset.rep.window.length < 64)
      ∧ (coalesce (List.replicate 64 (Report.lineQuiet 8 8)) (.lineQuiet 8 8) = none
        ∧ 64 ≤ (List.replicate 64 (Report.lineQuiet 8 8)).length)
      ∧ State.reset.rep.queue = [] := by decide +kernel

theorem witness_UnsentReportsCoalesce_other :
    (∀ a acc rep sk cy, Report.lineQuiet 8 8 ≠ .condition a acc rep sk cy)
      ∧ (∀ m src p len st, Report.lineQuiet 8 8 ≠ .mailWaiting m src p len st)
      ∧ (∀ m full nob src p cy, Report.lineQuiet 8 8 ≠ .mailDropped m full nob src p cy)
      ∧ ∀ k, Report.lineQuiet 8 8 ≠ .linkFault k := by
  refine ⟨?_, ?_, ?_, ?_⟩ <;> intros <;> exact Report.noConfusion

/-- Two reports in the report window, with numbers 255 and 0. -/
def twoSent : State :=
  modRep
    (fun u => { u with window := [{ seq := 0xFF#8, report := .lineQuiet 8 8 }, { seq := 0x00#8, report := .lineQuiet 9 8 }] })
    State.reset

theorem witness_ReportsAcknowledgedAndResent :
    (CanTake twoSent ⟨0x19#8, 7, [0x00#8]⟩
        ∧ twoSent.rep.window
          = [{ seq := 0xFF#8, report := .lineQuiet 8 8 }] ++ { seq := 0x00#8, report := .lineQuiet 9 8 } :: []
        ∧ ∀ x ∈ [({ seq := 0xFF#8, report := .lineQuiet 8 8 } : SentReport)], x.seq ≠ 0x00#8)
      ∧ (CanTake twoSent ⟨0x19#8, 7, [0x01#8]⟩ ∧ ∀ x ∈ twoSent.rep.window, x.seq ≠ 0x01#8)
      ∧ CanTake twoSent ⟨0x1A#8, 7, []⟩ :=
  ⟨⟨canTake _ _ (by decide +kernel), rfl, by decide⟩, ⟨canTake _ _ (by decide +kernel), by decide⟩,
    canTake _ _ (by decide +kernel)⟩

/-! ## Witnesses: the line -/

theorem witness_LineStarts :
    (CanTake State.reset ⟨0x01#8, 7, []⟩ ∧ State.reset.line.state = .stopped)
      ∧ (onLine .faulted false State.reset).line.state = .faulted
      ∧ (CanTake (onLine .starting true State.reset) ⟨0x01#8, 7, []⟩
        ∧ (onLine .starting true State.reset).line.state = .starting)
      ∧ (onLine .running true State.reset).line.state = .running :=
  ⟨⟨canTake_reset _, rfl⟩, rfl, ⟨canTake _ _ (by decide +kernel), rfl⟩, rfl⟩

/-- A RUNNING line in a cycle, station 1 ONLINE with a note IN_FLIGHT. -/
def busyLine : State :=
  withNotes [note 1 1 [0xAA#8, 0xBB#8] 0 .inFlight] none (put 1 .online (onLine .running true State.reset))

theorem witness_LineStops :
    (CanTake State.reset ⟨0x02#8, 7, []⟩ ∧ State.reset.line.state = .stopped)
      ∧ (CanTake (onLine .faulted false State.reset) ⟨0x02#8, 7, []⟩
        ∧ (onLine .faulted false State.reset).line.state = .faulted)
      ∧ (CanTake busyLine ⟨0x02#8, 7, []⟩ ∧ busyLine.line.state = .running ∧ Shape busyLine ∧ LiveHandles busyLine
        ∧ WindowSound busyLine) :=
  ⟨⟨canTake_reset _, rfl⟩, ⟨canTake _ _ (by decide +kernel), rfl⟩,
    ⟨canTake _ _ (by decide +kernel), by decide +kernel, shape _ (by decide +kernel), handles _ (by decide +kernel),
      noWindow _ (by decide +kernel)⟩⟩

/-- Nine packets of 512 octets on lane 0: 144 blocks. -/
def nineLong : State :=
  { withLane 0 .idle [] (List.replicate 9 (packet 1 .filling [] 512 0)) State.reset with free := 112 }

theorem witness_LineSettingsSet :
    (CanTake State.reset ⟨0x03#8, 7, [32#8, 0#8, 0#8, 0#8, 0#8, 0#8]⟩ ∧ ¬(32#8 : Octet).toNat < 32)
      ∧ (CanTake State.reset ⟨0x03#8, 7, [1#8, 16#8, 0#8, 0#8, 0#8, 0#8]⟩
        ∧ ((1#8 : Octet).getLsbD 0 = true ∧ ¬(1 ≤ (16#8 : Octet).toNat ∧ (16#8 : Octet).toNat ≤ 15)))
      ∧ ((31#8 : Octet).toNat < 32 ∧ (1 ≤ (15#8 : Octet).toNat ∧ (15#8 : Octet).toNat ≤ 15) ∧ 8 ≤ (8#8 : Octet).toNat
        ∧ (4 ≤ (4#8 : Octet).toNat) ∧ 8 ≤ (255#8 : Octet).toNat ∧ (128#8 : Octet).toNat ≤ 128)
      ∧ (CanTake State.reset ⟨0x03#8, 7, [31#8, 15#8, 8#8, 4#8, 255#8, 128#8]⟩
        ∧ ¬256 - (128#8 : Octet).toNat < State.reset.txHeld)
      ∧ (CanTake nineLong ⟨0x03#8, 7, [31#8, 15#8, 8#8, 4#8, 255#8, 128#8]⟩ ∧ (31#8 : Octet).getLsbD 4 = true
        ∧ 256 - (128#8 : Octet).toNat < nineLong.txHeld) :=
  ⟨⟨canTake_reset _, by decide⟩, ⟨canTake_reset _, by decide⟩, by decide, ⟨canTake_reset _, by decide +kernel⟩,
    ⟨canTake _ _ (by decide +kernel), by decide, by decide +kernel⟩⟩

theorem witness_ReadsChangeNothing :
    CanTake State.reset ⟨0x04#8, 7, []⟩ ∧ CanTake State.reset ⟨0x10#8, 7, []⟩
      ∧ (CanTake State.reset ⟨0x15#8, 7, [3#8]⟩ ∧ (3#8 : Octet).toNat < 4)
      ∧ (CanTake State.reset ⟨0x15#8, 7, [4#8]⟩ ∧ 4 ≤ (4#8 : Octet).toNat) :=
  ⟨canTake_reset _, canTake_reset _, ⟨canTake_reset _, by decide⟩, ⟨canTake_reset _, by decide⟩⟩

/-- STARTING, between cycles, with `n` cycles completed. -/
def starting (n : Nat) : State := modLine (fun e => { e with startCount := n }) (onLine .starting false State.reset)

theorem witness_StartingCycleStarts :
    ((starting 15).pin = .high ∧ (starting 15).line.cycleOpen = false ∧ (starting 15).line.state = .starting
        ∧ (starting 15).line.startCount < 16)
      ∧ State.reset.line.state = .stopped ∧ (onLine .starting true State.reset).line.cycleOpen = true
      ∧ ((onLine .starting true State.reset).pin = .high ∧ (onLine .starting true State.reset).line.state = .starting
        ∧ (onLine .starting true State.reset).line.driven[47]? = some 0xFF#8)
      ∧ ((onLine .running true State.reset).pin = .high ∧ (onLine .running true State.reset).line.cycleOpen = true
        ∧ (onLine .running true State.reset).line.state = .running)
      ∧ State.reset.line.cycleOpen = false ∧ (onLine .faulted false State.reset).line.state = .faulted
      ∧ ({ State.reset with pin := .low .powerOn } : State).pin ≠ .high := by
  decide +kernel

theorem witness_SixteenthCycleReachesRunning :
    ((starting 16).pin = .high ∧ (starting 16).line.cycleOpen = false ∧ (starting 16).line.state = .starting
        ∧ 16 ≤ (starting 16).line.startCount ∧ Shape (starting 16))
      ∧ ¬((starting 15).line.state = .starting ∧ 16 ≤ (starting 15).line.startCount) :=
  ⟨⟨rfl, rfl, rfl, by decide, shape _ (by decide +kernel)⟩, by decide +kernel⟩

/-- RUNNING, between cycles, the next cycle being number `n`. -/
def before (n : BitVec 16) (s : State) : State :=
  modLine (fun e => { e with cycleCounter := n - 1 }) (onLine .running false s)

theorem witness_RunningCycleCalls :
    ((before 16 State.reset).pin = .high ∧ (before 16 State.reset).line.cycleOpen = false
        ∧ (before 16 State.reset).line.state = .running ∧ Shape (before 16 State.reset)
        ∧ StartsCycle .cycleStart (before 16 State.reset))
      ∧ ((before 16 State.reset).line.settings.probeInterval ≠ 0
        ∧ ((before 16 State.reset).line.cycleCounter + 1).toNat % (before 16 State.reset).line.settings.probeInterval = 0
        ∧ ((before 16 State.reset).station 30).state = .free)
      ∧ (((before 1 (put 30 .online State.reset)).line.cycleCounter + 1).toNat
            % (before 1 (put 30 .online State.reset)).line.settings.probeInterval ≠ 0
        ∧ ((before 1 (put 30 .online State.reset)).station 30).state ≠ .free
        ∧ ((before 1 (put 30 .online State.reset)).station 30).state ≠ .barred)
      ∧ ∀ a ∈ List.range' 1 30, ((before 1 State.reset).station a).state = .free :=
  ⟨⟨rfl, rfl, rfl, shape _ (by decide +kernel), .inl rfl⟩, by decide +kernel, by decide +kernel, by decide +kernel⟩

/-- Before a call to station 1 ONLINE with the notes given. -/
def calledWith (store : List Note) : State := before 1 (withNotes store none (put 1 .online State.reset))

theorem witness_RunningCycleCalls_notes :
    ((put 1 .offline State.reset).station 1).state ≠ .online
      ∧ (((calledWith []).station 1).state = .online ∧ ((calledWith []).station 1).abortPending = false
        ∧ ∀ n ∈ (calledWith []).notes.store, n.station ≠ 1)
      ∧ (((calledWith []).modStation 1 fun t => { t with abortPending := true }).station 1).abortPending = true
      ∧ (let s := calledWith [note 5 2 [0xAA#8] 0 .queued, note 1 1 [0xAA#8, 0xBB#8] 0 .queued]
        s.notes.store = [note 5 2 [0xAA#8] 0 .queued] ++ note 1 1 [0xAA#8, 0xBB#8] 0 .queued :: []
          ∧ (∀ m ∈ [note 5 2 [0xAA#8] 0 .queued], m.station ≠ 1) ∧ 0 < 2 ∧ (s.notes.store.map (·.handle)).Nodup)
      ∧ (note 1 1 [0xAA#8, 0xBB#8] 1 .inFlight).nextIndex < (note 1 1 [0xAA#8, 0xBB#8] 1 .inFlight).octets.length := by
  decide +kernel

/-- Lane 0 holds slot 5 in both directions. -/
def laneHolds (s : State) : State :=
  (s.setEntry .up 5 (some { owner := .lane 0, prec := 1 })).setEntry .down 5 (some { owner := .lane 0, prec := 1 })

/-- Before a cycle, stations 2 (on lane 1, which holds nothing) and 1 queued. -/
def queued (w : Option Window) : State :=
  before 1 (withWindow w [2, 1] (laneHolds ((put 1 .online (put 2 .online State.reset)).modStation 2 fun t => { t with lane := 1 })))

theorem witness_RunningCycleGrants :
    ((queued none).pin = .high ∧ (queued none).line.cycleOpen = false ∧ (queued none).line.state = .running
        ∧ Shape (queued none) ∧ (queued none).window.window = none ∧ StartsCycle .cycleStart (queued none))
      ∧ ((queued none).window.queue = [2] ++ 1 :: []
        ∧ (∀ b ∈ [2], (queued none).held (.lane ((queued none).station b).lane) .up = [])
        ∧ (queued none).held (.lane ((queued none).station 1).lane) .up ≠ [])
      ∧ (∀ a ∈ (before 1 (withWindow none [2] State.reset)).window.queue,
        (before 1 (withWindow none [2] State.reset)).held
          (.lane ((before 1 (withWindow none [2] State.reset)).station a).lane) .up = [])
      ∧ (63 < (queued none).line.settings.windowLimit ∧ (queued none).line.settings.windowLimit ≤ 64)
      ∧ (queued (some { window 3 false 0 with cyclesUsed := 63 })).window.window
        = some { window 3 false 0 with cyclesUsed := 63 }
      ∧ (queued (some { window 3 false 0 with cyclesUsed := 64 })).window.window
        = some { window 3 false 0 with cyclesUsed := 64 }
      ∧ StartsCycle .windowOverrun (queued (some { window 3 false 0 with cyclesUsed := 64 })) :=
  ⟨⟨rfl, rfl, rfl, shape _ (by decide +kernel), rfl, .inl rfl⟩, by decide +kernel, by decide +kernel, by decide +kernel, rfl,
    rfl, .inr (.inr ⟨rfl, _, rfl, by decide⟩)⟩

/-- Before a cycle, lane 0 with the engine, the gap count and the queue given. -/
def laneAt (e : EngineState) (gap : Nat) (q : List Packet) : State :=
  before 1 ((withLane 0 e [] q (laneHolds State.reset)).modLane 0 fun x => { x with gapCount := gap })

theorem witness_RunningCycleStartsPackets :
    ((laneAt .gap 2 []).pin = .high ∧ (laneAt .gap 2 []).line.cycleOpen = false ∧ (laneAt .gap 2 []).line.state = .running
        ∧ ((laneAt .gap 2 []).lane 0).engine = .gap ∧ 2 ≤ ((laneAt .gap 2 []).lane 0).gapCount)
      ∧ (((laneAt .gap 1 []).lane 0).engine = .gap ∧ ((laneAt .gap 1 []).lane 0).gapCount < 2)
      ∧ (let s := laneAt .idle 0 [packet 1 .ready [] 0 0]
        (s.lane 0).engine = .idle ∧ (s.lane 0).queue = packet 1 .ready [] 0 0 :: [] ∧ s.held (.lane 0) .down ≠ []
          ∧ (packet 1 .ready [] 0 0).state = .ready)
      ∧ (let s := (laneAt .gap 2 [packet 1 .filling [0x41#8] 2 0]).modLane 0 fun x => { x with cutThrough := true }
        (s.lane 0).queue = packet 1 .filling [0x41#8] 2 0 :: [] ∧ (s.lane 0).cutThrough = true
          ∧ (packet 1 .filling [0x41#8] 2 0).body ≠ [])
      ∧ (let s := laneAt .idle 0 [packet 1 .filling [0x41#8] 2 0]
        (s.lane 0).queue.head? = some (packet 1 .filling [0x41#8] 2 0) ∧ (s.lane 0).cutThrough = false)
      ∧ ((laneAt .idle 0 []).lane 0).queue = [] := by decide +kernel

theorem witness_RunningCycleStartsPackets_gapEnd : StartsCycle (.gapEnd 0) (laneAt .gap 2 []) :=
  .inr (.inl ⟨0, rfl, by decide, by decide +kernel, by decide +kernel⟩)

/-- In a cycle, after `n` mismatches in a row. -/
def mismatched (n : Nat) (s : State) : State := modLine (fun e => { e with mismatchCount := n }) s

theorem witness_CycleVerdict :
    ¬(State.reset.pin = .high ∧ State.reset.line.cycleOpen = true)
      ∧ (busyLine.pin = .high ∧ busyLine.line.cycleOpen = true ∧ busyLine.line.state = .running)
      ∧ (true = true ∧ ∀ p ∈ [(47, 0xFF#8)], busyLine.line.driven[p.1]? = some p.2)
      ∧ ¬(∀ p ∈ [(47, 0x00#8)], busyLine.line.driven[p.1]? = some p.2)
      ∧ (mismatched 6 busyLine).line.mismatchCount + 1 < 8 ∧ 8 ≤ (mismatched 7 busyLine).line.mismatchCount + 1
      ∧ (mismatched 7 (onLine .starting true State.reset)).line.state = .starting := by decide +kernel

theorem witness_CycleVerdict_running :
    Shape (mismatched 7 busyLine) ∧ LiveHandles (mismatched 7 busyLine) ∧ WindowSound (mismatched 7 busyLine) :=
  ⟨shape _ (by decide +kernel), handles _ (by decide +kernel), noWindow _ (by decide +kernel)⟩

/-! ## Witnesses: stations -/

theorem witness_EnrolMakesOffline :
    (CanTake State.reset ⟨0x05#8, 7, [0#8, 0#8]⟩ ∧ ¬1 ≤ (0#8 : Octet).toNat)
      ∧ (CanTake State.reset ⟨0x05#8, 7, [31#8, 0#8]⟩ ∧ ¬(31#8 : Octet).toNat ≤ 30)
      ∧ (CanTake State.reset ⟨0x05#8, 7, [30#8, 4#8]⟩ ∧ ¬(4#8 : Octet).toNat ≤ 3)
      ∧ (CanTake (put 30 .silent State.reset) ⟨0x05#8, 7, [30#8, 3#8]⟩
        ∧ ((put 30 .silent State.reset).station 30).state ≠ .free)
      ∧ (CanTake State.reset ⟨0x05#8, 7, [30#8, 3#8]⟩ ∧ (1 ≤ (30#8 : Octet).toNat ∧ (30#8 : Octet).toNat ≤ 30)
        ∧ (3#8 : Octet).toNat ≤ 3 ∧ (State.reset.station 30).state = .free)
      ∧ (State.reset.station 1).state = .free :=
  ⟨⟨canTake_reset _, by decide⟩, ⟨canTake_reset _, by decide⟩, ⟨canTake_reset _, by decide⟩,
    ⟨canTake _ _ (by decide +kernel), by decide +kernel⟩, ⟨canTake_reset _, by decide, by decide, by decide +kernel⟩,
    by decide +kernel⟩

/-- Station 30 the source of circuit 11, station 1 not. -/
def sourced : State := (put 30 .online (put 1 .online State.reset)).setCircuit 11 (some (circuit 30 .live true))

theorem notSource : ¬∃ n c, n < 12 ∧ State.reset.circuit n = some c ∧ c.source = 1 := by
  rintro ⟨n, c, hn, h, -⟩
  interval_cases n <;> cases h

theorem witness_WithdrawAndBarRemoveStation :
    (Shape sourced ∧ LiveHandles sourced ∧ CanTake sourced ⟨0x06#8, 7, [31#8]⟩ ∧ ¬(31#8 : Octet).toNat ≤ 30)
      ∧ (CanTake sourced ⟨0x06#8, 7, [30#8]⟩ ∧ ∃ n c, n < 12 ∧ sourced.circuit n = some c ∧ c.source = (30#8 : Octet).toNat)
      ∧ (CanTake State.reset ⟨0x06#8, 7, [1#8]⟩ ∧ (State.reset.station 1).state = .free
        ∧ ¬∃ n c, n < 12 ∧ State.reset.circuit n = some c ∧ c.source = 1)
      ∧ (CanTake busyLine ⟨0x06#8, 7, [1#8]⟩ ∧ Shape busyLine ∧ LiveHandles busyLine
        ∧ (busyLine.station 1).state = .online ∧ ¬∃ n c, n < 12 ∧ busyLine.circuit n = some c ∧ c.source = 1)
      ∧ (CanTake (put 1 .barred State.reset) ⟨0x07#8, 7, [1#8]⟩ ∧ ((put 1 .barred State.reset).station 1).state = .barred)
      ∧ (CanTake State.reset ⟨0x07#8, 7, [30#8]⟩ ∧ (State.reset.station 30).state = .free)
      ∧ (CanTake State.reset ⟨0x07#8, 7, [0#8]⟩ ∧ ¬1 ≤ (0#8 : Octet).toNat)
      ∧ (CanTake (put 30 .silent State.reset) ⟨0x07#8, 7, [30#8]⟩ ∧ Shape (put 30 .silent State.reset)
        ∧ LiveHandles (put 30 .silent State.reset) ∧ ((put 30 .silent State.reset).station 30).state = .silent) :=
  ⟨⟨shape _ (by decide +kernel), handles _ (by decide +kernel), canTake _ _ (by decide +kernel), by decide⟩,
    ⟨canTake _ _ (by decide +kernel), 11, circuit 30 .live true, by decide, by decide +kernel, rfl⟩,
    ⟨canTake_reset _, by decide +kernel, notSource⟩,
    ⟨canTake _ _ (by decide +kernel), shape _ (by decide +kernel), handles _ (by decide +kernel), by decide +kernel,
      notSource⟩,
    ⟨canTake _ _ (by decide +kernel), by decide +kernel⟩, ⟨canTake_reset _, by decide +kernel⟩,
    ⟨canTake_reset _, by decide⟩,
    ⟨canTake _ _ (by decide +kernel), shape _ (by decide +kernel), handles _ (by decide +kernel), by decide +kernel⟩⟩

theorem witness_UnbarAndBindChangeEntry :
    (CanTake State.reset ⟨0x08#8, 7, [31#8]⟩ ∧ ¬(31#8 : Octet).toNat ≤ 30)
      ∧ (CanTake State.reset ⟨0x08#8, 7, [30#8]⟩ ∧ (State.reset.station 30).state ≠ .barred)
      ∧ (CanTake (put 1 .barred State.reset) ⟨0x08#8, 7, [1#8]⟩ ∧ ((put 1 .barred State.reset).station 1).state = .barred)
      ∧ (CanTake State.reset ⟨0x09#8, 7, [1#8, 4#8]⟩ ∧ ¬(4#8 : Octet).toNat ≤ 3)
      ∧ (CanTake State.reset ⟨0x09#8, 7, [1#8, 3#8]⟩ ∧ (3#8 : Octet).toNat ≤ 3 ∧ (State.reset.station 1).state = .free)
      ∧ (CanTake (withWindow (some (window 1 false 0)) [] (put 1 .online State.reset)) ⟨0x09#8, 7, [1#8, 3#8]⟩
        ∧ (withWindow (some (window 1 false 0)) [] (put 1 .online State.reset)).window.window = some (window 1 false 0)
        ∧ (window 1 false 0).owner = 1)
      ∧ (CanTake (put 1 .online State.reset) ⟨0x09#8, 7, [1#8, 3#8]⟩ ∧ ((put 1 .online State.reset).station 1).state ≠ .free
        ∧ ∀ w, (put 1 .online State.reset).window.window = some w → w.owner ≠ 1) :=
  ⟨⟨canTake_reset _, by decide⟩, ⟨canTake_reset _, by decide +kernel⟩, ⟨canTake _ _ (by decide +kernel), by decide +kernel⟩,
    ⟨canTake_reset _, by decide⟩, ⟨canTake_reset _, by decide, by decide +kernel⟩,
    ⟨canTake _ _ (by decide +kernel), rfl, rfl⟩,
    ⟨canTake _ _ (by decide +kernel), by decide +kernel, fun w h => (Option.some_ne_none w h.symm).elim⟩⟩

theorem witness_StationReadCopiesEntry :
    (CanTake State.reset ⟨0x0A#8, 7, [0#8, 0#8]⟩ ∧ ¬1 ≤ (0#8 : Octet).toNat)
      ∧ (CanTake State.reset ⟨0x0A#8, 7, [30#8, 2#8]⟩ ∧ ¬((2#8 : Octet) = 0#8 ∨ (2#8 : Octet) = 1#8))
      ∧ (CanTake State.reset ⟨0x0A#8, 7, [1#8, 0#8]⟩ ∧ 1 ≤ (1#8 : Octet).toNat)
      ∧ (CanTake State.reset ⟨0x0A#8, 7, [30#8, 1#8]⟩ ∧ (30#8 : Octet).toNat ≤ 30) :=
  ⟨⟨canTake_reset _, by decide⟩, ⟨canTake_reset _, by decide⟩, ⟨canTake_reset _, by decide⟩, ⟨canTake_reset _, by decide⟩⟩

/-- In a RUNNING cycle that calls station `a`, in state `st`. -/
def polled (a : Nat) (st : StationState) : State := calling (.ring a) (put a st (onLine .running true State.reset))

/-- The premises that the statements on answers share. -/
theorem polled_running (a : Nat) (st : StationState) :
    (polled a st).pin = .high ∧ (polled a st).line.cycleOpen = true ∧ (polled a st).line.state = .running
      ∧ (polled a st).poll.call = .ring a := by
  cases a <;> exact ⟨rfl, rfl, rfl, rfl⟩

theorem witness_ValidAnswersJoin :
    (Shape (polled 30 .offline) ∧ ((polled 30 .offline).station 30).state = .offline ∧ (0xF7#8 : Octet).toNat / 8 ≠ 31)
      ∧ (Shape (polled 1 .silent) ∧ ((polled 1 .silent).station 1).state = .silent ∧ (0x00#8 : Octet).toNat / 8 ≠ 31)
      ∧ (Shape (polled 1 .joining) ∧ ((polled 1 .joining).station 1).state = .joining)
      ∧ (Shape (polled 30 .barred) ∧ ((polled 30 .barred).station 30).state = .barred
        ∧ (Shape (polled 1 .free) ∧ ((polled 1 .free).station 1).state = .free)
        ∧ ((polled 1 .free).pin = .high ∧ (polled 1 .free).line.cycleOpen = true ∧ (polled 1 .free).line.state = .running
          ∧ (polled 1 .free).poll.call = .ring 1))
      ∧ ((onLine .running true State.reset).poll.call = .none ∧ (onLine .running true State.reset).pin = .high
        ∧ (onLine .running true State.reset).line.cycleOpen = true
        ∧ (onLine .running true State.reset).line.state = .running
        ∧ Instr.noAck 0#8 ≠ .answerArrival 0#8)
      ∧ State.reset.line.state ≠ .running ∧ (onLine .running false State.reset).line.cycleOpen = false :=
  ⟨⟨shape _ (by decide +kernel), by decide +kernel, by decide⟩, ⟨shape _ (by decide +kernel), by decide +kernel, by decide⟩,
    ⟨shape _ (by decide +kernel), by decide +kernel⟩,
    ⟨shape _ (by decide +kernel), by decide +kernel, ⟨shape _ (by decide +kernel), by decide +kernel⟩, by decide +kernel⟩,
    by decide +kernel, by decide +kernel, by decide +kernel⟩

/-- In a RUNNING cycle that probes station 30. -/
def probed (st : StationState) (heard : Bool) : State :=
  calling (.probe 30) ((put 30 st (onLine .running true State.reset)).modStation 30 fun t => { t with heard := heard })

theorem witness_ProbeAnswersHeard :
    ((probed .free false).pin = .high ∧ (probed .free false).line.cycleOpen = true
        ∧ (probed .free false).line.state = .running ∧ (probed .free false).poll.call = .probe 30)
      ∧ ((probed .offline false).station 30).state ≠ .free
      ∧ (((probed .free true).station 30).state = .free ∧ (0xF8#8 : Octet).toNat / 8 = 31)
      ∧ (((probed .free true).station 30).heard = true ∧ (0xF7#8 : Octet).toNat / 8 ≠ 31)
      ∧ ((probed .free false).station 30).heard = false := by decide +kernel

/-- The polled station ONLINE with a miss count, the line with a quiet count. -/
def missing (miss quiet : Nat) : State :=
  modLine (fun e => { e with quietCount := quiet }) ((polled 1 .online).modStation 1 fun t => { t with missCount := miss })

theorem witness_MissedAnswersCount :
    (min 255 ((missing 0 62).line.quietCount + 1) < (missing 0 62).line.settings.quietLimit
        ∧ (0xFF#8 : Octet).toNat / 8 = 31 ∧ (0xF8#8 : Octet).toNat / 8 = 31)
      ∧ ((polled 1 .free).station 1).state = .free ∧ ((polled 1 .barred).station 1).state = .barred
      ∧ ((polled 30 .offline).station 30).state = .offline ∧ ((polled 1 .silent).station 1).state = .silent
      ∧ ((polled 1 .joining).station 1).state = .joining
      ∧ (((missing 1 0).station 1).state = .online
        ∧ min 15 (((missing 1 0).station 1).missCount + 1) < (missing 1 0).line.settings.missLimit)
      ∧ (((missing 2 0).station 1).state = .online
        ∧ (missing 2 0).line.settings.missLimit ≤ min 15 (((missing 2 0).station 1).missCount + 1)) := by
  decide +kernel

theorem witness_MissedAnswersCount_departure : Shape (missing 2 0) ∧ LiveHandles (missing 2 0) :=
  ⟨shape _ (by decide +kernel), handles _ (by decide +kernel)⟩

theorem witness_QuietLineReported :
    ((missing 0 63).poll.call = .ring 1 ∧ ((missing 0 63).station 1).state ≠ .free
        ∧ ((missing 0 63).station 1).state ≠ .barred
        ∧ (missing 0 63).line.settings.quietLimit ≤ min 255 ((missing 0 63).line.quietCount + 1)
        ∧ (missing 0 63).line.quietReported = false)
      ∧ min 255 ((missing 0 62).line.quietCount + 1) < (missing 0 62).line.settings.quietLimit
      ∧ (modLine (fun e => { e with quietReported := true }) (missing 0 255)).line.quietReported = true := by
  decide +kernel

/-! ## Witnesses: notes -/

/-- The polled station ONLINE, with the call-out and the notes given, its busy run and its unacked polls. -/
def awaiting (mark : NoteMark) (store : List Note) (busy unacked : Nat) : State :=
  withNotes store
    (some { station := 1, mark := mark, toggle := true, note := if mark = .none ∨ mark = .abort then none else some (9, 0) })
    ((polled 1 .online).modStation 1 fun t => { t with busyRun := busy, unackedPolls := unacked })

theorem witness_OnlineAnswersJudgeNotes :
    Shape (awaiting .none [] 0 0) ∧ ((awaiting .none [] 0 0).station 1).state = .online
      ∧ ((awaiting .none [] 0 0).poll.call = .ring 1 ∧ (0xF7#8 : Octet).toNat / 8 ≠ 31)
      ∧ (∃ c, (awaiting .none [] 0 0).notes.callOut = some c ∧ c.mark = .none)
      ∧ (∃ c, (awaiting .abort [] 0 0).notes.callOut = some c ∧ c.mark = .abort)
      ∧ (∃ c, (awaiting .more [] 0 0).notes.callOut = some c ∧ c.mark = .more ∧ c.note = some (9, 0)
        ∧ ∀ n ∈ (awaiting .more [] 0 0).notes.store, n.handle = 9 → n.state = .queued) :=
  ⟨shape _ (by decide +kernel), by decide +kernel, ⟨rfl, by decide⟩, ⟨_, rfl, rfl⟩, ⟨_, rfl, rfl⟩,
    ⟨_, rfl, rfl, rfl, by decide +kernel⟩⟩

/-- The Note Store of the answers that follow: another station's note, then the note called. -/
def calledStore (octets : List Octet) : List Note := [note 5 2 [0xAA#8] 0 .queued, note 9 1 octets 0 .inFlight]

theorem witness_OnlineAnswersJudgeNotes_called :
    (let s := awaiting .more (calledStore [0xAA#8, 0xBB#8]) 62 2
    s.notes.store = [note 5 2 [0xAA#8] 0 .queued] ++ note 9 1 [0xAA#8, 0xBB#8] 0 .inFlight :: []
        ∧ (∀ m ∈ [note 5 2 [0xAA#8] 0 .queued] ++ ([] : List Note), m.handle ≠ 9)
        ∧ (s.station 1).busyRun + 1 < 64 ∧ (s.station 1).unackedPolls + 1 < 4)
      ∧ (64 ≤ ((awaiting .endMark (calledStore [0xAA#8]) 63 3).station 1).busyRun + 1
        ∧ 4 ≤ ((awaiting .endMark (calledStore [0xAA#8]) 63 3).station 1).unackedPolls + 1)
      ∧ (0x01#8 : Octet).getLsbD 0 = true
      ∧ ((0x00#8 : Octet).getLsbD 0 = false ∧ (0x00#8 : Octet).getLsbD 2 ≠ true)
      ∧ ((0x04#8 : Octet).getLsbD 0 = false ∧ (0x04#8 : Octet).getLsbD 2 = true) := by decide +kernel

/-- Station 1 enrolled, `own` notes for it, `other` notes for station 2, `done` completions waiting. -/
def stocked (own other done : Nat) : State :=
  modRep (fun u => { u with entries := List.replicate done (noteDone 9) })
    (withNotes (List.replicate own (note 1 1 [0xAA#8] 0 .queued) ++ List.replicate other (note 2 2 [0xAA#8] 0 .queued)) none
      (put 1 .offline State.reset))

theorem canTake_stocked (own other done : Nat) (f : Frame) : CanTake (stocked own other done) f :=
  canTake _ f ⟨rfl, rfl, Nat.zero_lt_succ 3, rfl, rfl⟩

theorem witness_NoteSendQueuesNote :
    ((List.replicate 16 0xAA#8).length ≤ 16 ∧ ¬(31#8 : Octet).toNat ≤ 30 ∧ ¬(([] : List Octet) ≠ []))
      ∧ (State.reset.station 30).state = .free
      ∧ 32 ≤ (stocked 4 28 0).notes.store.length
      ∧ ((stocked 4 27 0).notes.store.length < 32
        ∧ 4 ≤ (stocked 4 27 0).notes.store.countP fun n => decide (n.station = 1))
      ∧ (((stocked 3 28 0).notes.store.countP fun n => decide (n.station = 1)) < 4
        ∧ (stocked 3 28 0).notes.store.length < 32 ∧ (stocked 3 28 0).placesHeld < 96)
      ∧ (96 ≤ (stocked 3 28 65).placesHeld ∧ (stocked 3 28 64).placesHeld < 96)
      ∧ ((stocked 0 0 0).station 1).state = .offline := by decide +kernel

theorem witness_NoteCancelFinishesNote :
    (CanTake busyLine ⟨0x0C#8, 7, [0#8, 1#8]⟩ ∧ busyLine.notes.store = [] ++ note 1 1 [0xAA#8, 0xBB#8] 0 .inFlight :: []
        ∧ (0#8 : Octet).toNat * 256 + (1#8 : Octet).toNat = 1)
      ∧ (CanTake (stocked 0 0 1) ⟨0x0C#8, 7, [0#8, 9#8]⟩ ∧ (∀ m ∈ (stocked 0 0 1).notes.store, m.handle ≠ 9)
        ∧ (stocked 0 0 1).rep.entries = [] ++ noteDone 9 :: [])
      ∧ (CanTake (stocked 0 0 1) ⟨0x0C#8, 7, [0#8, 8#8]⟩ ∧ (∀ m ∈ (stocked 0 0 1).notes.store, m.handle ≠ 8)
        ∧ ∀ x, .note x ∈ (stocked 0 0 1).rep.entries → x.handle ≠ 8) :=
  ⟨⟨canTake _ _ (by decide +kernel), rfl, rfl⟩, ⟨canTake_stocked .., by decide +kernel, rfl⟩,
    ⟨canTake_stocked .., by decide +kernel, fun x h => by
      have : Completion.note x = noteDone 9 := List.mem_singleton.mp h
      cases this; decide⟩⟩

/-! ## Witnesses: the Slot Map, lanes and circuits -/

/-- Slot 6 in both directions is circuit 0's, at precedence 2. -/
def circuitHolds (s : State) : State :=
  (s.setEntry .down 6 (some { owner := .circuit 0, prec := 2 })).setEntry .up 6 (some { owner := .circuit 0, prec := 2 })

/-- Lane 0 sends a packet. -/
def sendingLane : State := withLane 0 .sending [5] [packet 1 .sending [] 0 0] (laneHolds State.reset)

theorem witness_LaneSetClaimsSlots_refusals :
    (CanTake State.reset ⟨0x0D#8, 7, [4#8, 1#8, 0#8, 0#8] ++ [] ++ [0#8] ++ []⟩ ∧ ¬(4#8 : Octet).toNat ≤ 3)
      ∧ (CanTake State.reset ⟨0x0D#8, 7, [3#8, 8#8, 0#8, 0#8] ++ [] ++ [0#8] ++ []⟩ ∧ ¬(8#8 : Octet).toNat ≤ 7)
      ∧ (CanTake State.reset ⟨0x0D#8, 7, [3#8, 1#8, 0#8, 1#8] ++ [48#8] ++ [0#8] ++ []⟩ ∧ ¬(48#8 : Octet).toNat ≤ 47)
      ∧ (CanTake sendingLane ⟨0x0D#8, 7, [0#8, 1#8, 0#8, 1#8] ++ [47#8] ++ [0#8] ++ []⟩
        ∧ (sendingLane.lane 0).engine = .sending ∧ sendingLane.mapEntry .down 47 = none ∧ sendingLane.slots.reclaim = [])
      ∧ (CanTake (circuitHolds State.reset) ⟨0x0D#8, 7, [0#8, 2#8, 0#8, 0#8] ++ [] ++ [2#8] ++ [5#8, 6#8]⟩
        ∧ (circuitHolds State.reset).mapEntry .up 6 = some { owner := .circuit 0, prec := 2 } ∧ (2#8 : Octet).toNat ≤ 2
        ∧ (circuitHolds State.reset).mapEntry .up 5 = none ∧ (circuitHolds State.reset).slots.reclaim = []
        ∧ ((circuitHolds State.reset).lane 0).engine = .idle ∧ (circuitHolds State.reset).window.window = none) :=
  ⟨⟨canTake_reset _, by decide⟩, ⟨canTake_reset _, by decide⟩, ⟨canTake_reset _, by decide⟩,
    ⟨canTake _ _ (by decide +kernel), by decide +kernel⟩, ⟨canTake _ _ (by decide +kernel), by decide +kernel⟩⟩

theorem witness_LaneSetClaimsSlots :
    CanTake (circuitHolds State.reset) ⟨0x0D#8, 7, [3#8, 7#8, 1#8, 2#8] ++ [47#8, 6#8] ++ [1#8] ++ [5#8]⟩
      ∧ Shape (circuitHolds State.reset) ∧ ([47#8, 6#8] : List Octet).length ≤ 43 ∧ ([5#8] : List Octet).length ≤ 255
      ∧ (∀ e ∈ (circuitHolds State.reset).slots.reclaim, 5 ≤ e.slot ∧ e.slot ≤ 47)
      ∧ ((3#8 : Octet).toNat ≤ 3 ∧ (7#8 : Octet).toNat ≤ 7)
      ∧ (([47, 6] : List Nat).Nodup ∧ ∀ x ∈ ([47, 6, 5] : List Nat), 5 ≤ x ∧ x ≤ 47)
      ∧ ((circuitHolds State.reset).mapEntry .down 6 = some { owner := .circuit 0, prec := 2 } ∧ ¬7 ≤ 2)
      ∧ ((circuitHolds State.reset).mapEntry .down 47 = none ∧ (circuitHolds State.reset).mapEntry .up 5 = none
        ∧ (circuitHolds State.reset).window.window = none ∧ ((circuitHolds State.reset).lane 3).engine = .idle) :=
  ⟨canTake _ _ (by decide +kernel), shape _ (by decide +kernel), by decide, by decide, by decide +kernel, by decide,
    by decide, by decide +kernel, by decide +kernel⟩

/-- The slots held in `laneHolds`. -/
theorem laneHolds_entries (d : Dir) (x : Nat) (e : MapEntry) (h : (laneHolds State.reset).mapEntry d x = some e) : x = 5 := by
  by_cases hx : x < 48
  · have all : ∀ d ∈ [Dir.down, .up], ∀ x ∈ List.range 48, x ≠ 5 → (laneHolds State.reset).mapEntry d x = none := by
      decide +kernel
    by_contra hne
    rw [all d (by cases d <;> decide) x (List.mem_range.mpr hx) hne] at h
    cases h
  · have hl : ((laneHolds State.reset).slots.side d).length = 43 := by cases d <;> decide +kernel
    unfold State.mapEntry at h
    rw [atSlot] at h
    split at h
    · rw [List.getElem?_eq_none (by rw [hl]; show 43 ≤ x - 5; omega)] at h; cases h
    · cases h

theorem witness_LaneSetClaimsSlots_no_loser :
    CanTake (laneHolds State.reset) ⟨0x0D#8, 7, [0#8, 2#8, 0#8, 2#8] ++ [5#8, 6#8] ++ [1#8] ++ [5#8]⟩
      ∧ Shape (laneHolds State.reset) ∧ (laneHolds State.reset).slots.reclaim = []
      ∧ (laneHolds State.reset).mapEntry .down 5 = some { owner := .lane 0, prec := 1 }
      ∧ (laneHolds State.reset).mapEntry .down 6 = none
      ∧ ∀ d x e, (laneHolds State.reset).mapEntry d x = some e → x ∈ [5, 6] ∧ x ∈ [5] :=
  ⟨canTake _ _ (by decide +kernel), shape _ (by decide +kernel), by decide +kernel, by decide +kernel, by decide +kernel,
    fun d x e h => by rw [laneHolds_entries d x e h]; decide⟩

/-- Every circuit number taken. -/
def twelveOpen : State := { State.reset with circuits := List.replicate 12 (some (circuit 1 .live true)) }

theorem witness_CircuitOpenClaimsSlots :
    (CanTake busyLine ⟨0x0E#8, 7, [31#8, 1#8, 1#8] ++ [5#8] ++ [47#8]⟩ ∧ Shape busyLine ∧ ¬(31#8 : Octet).toNat ≤ 30)
      ∧ (CanTake State.reset ⟨0x0E#8, 7, [30#8, 1#8, 0#8] ++ [5#8] ++ [47#8]⟩ ∧ ¬1 ≤ (0#8 : Octet).toNat)
      ∧ (CanTake twelveOpen ⟨0x0E#8, 7, [30#8, 1#8, 1#8] ++ [5#8] ++ [47#8]⟩ ∧ ∀ n ∈ List.range 12, twelveOpen.circuit n ≠ none)
      ∧ (State.reset.circuit 0 = none ∧ (State.reset.station 30).state = .free)
      ∧ (CanTake (circuitHolds (put 30 .offline State.reset)) ⟨0x0E#8, 7, [30#8, 1#8, 2#8] ++ [5#8] ++ [6#8]⟩
        ∧ ((circuitHolds (put 30 .offline State.reset)).station 30).state ≠ .free
        ∧ (sourced.circuit 11).isSome = true ∧ sourced.circuit 0 = none
        ∧ (laneHolds State.reset).mapEntry .down 5 = some { owner := .lane 0, prec := 1 } ∧ Owner.lane 0 ≠ .circuit 0)
      ∧ (CanTake (put 1 .online State.reset) ⟨0x0E#8, 7, [1#8, 4#8, 7#8] ++ [5#8, 6#8, 7#8, 47#8] ++ [8#8, 9#8, 10#8, 11#8]⟩
        ∧ ((put 1 .online State.reset).station 1).state = .online
        ∧ ∀ x ∈ [5, 6, 7, 47], (put 1 .online State.reset).mapEntry .up x = none)
      ∧ (CanTake State.reset ⟨0x0E#8, 7, 30#8 :: 0#8 :: 1#8 :: []⟩ ∧ ¬(1 ≤ (0#8 : Octet).toNat ∧ (0#8 : Octet).toNat ≤ 4))
      ∧ (CanTake State.reset ⟨0x0E#8, 7, 30#8 :: 5#8 :: 1#8 :: [5#8, 6#8]⟩
        ∧ ¬(1 ≤ (5#8 : Octet).toNat ∧ (5#8 : Octet).toNat ≤ 4)) :=
  ⟨⟨canTake _ _ (by decide +kernel), shape _ (by decide +kernel), by decide⟩, ⟨canTake_reset _, by decide⟩,
    ⟨canTake _ _ (by decide +kernel), by decide +kernel⟩, by decide +kernel,
    ⟨canTake _ _ (by decide +kernel), by decide +kernel⟩, ⟨canTake _ _ (by decide +kernel), by decide +kernel⟩,
    ⟨canTake_reset _, by decide⟩, ⟨canTake_reset _, by decide⟩⟩

/-- Circuit 11 open on slot 9 up and slot 10 down, lane 0 and then lane 1 waiting for slot 10. -/
def waitedFor : State :=
  { ((sourced.setEntry .up 9 (some { owner := .circuit 11, prec := 2 })).setEntry .down 10
      (some { owner := .circuit 11, prec := 2 })) with
    slots :=
      { ((sourced.setEntry .up 9 (some { owner := .circuit 11, prec := 2 })).setEntry .down 10
          (some { owner := .circuit 11, prec := 2 })).slots with
        reclaim := [⟨.lane 0, .down, 10, 1⟩, ⟨.lane 1, .down, 10, 1⟩] } }

theorem witness_CircuitCloseFreesSlots :
    (CanTake State.reset ⟨0x0F#8, 7, [12#8]⟩ ∧ 12 ≤ (12#8 : Octet).toNat)
      ∧ (CanTake State.reset ⟨0x0F#8, 7, [11#8]⟩ ∧ State.reset.circuit 11 = none)
      ∧ (CanTake waitedFor ⟨0x0F#8, 7, [11#8]⟩ ∧ Shape waitedFor ∧ waitedFor.circuit 11 = some (circuit 30 .live true))
      ∧ (waitedFor.mapEntry .up 9 = some { owner := .circuit 11, prec := 2 } ∧ 9 ∈ (circuit 30 .live true).up)
      ∧ (waitedFor.mapEntry .down 10 = some { owner := .circuit 11, prec := 2 } ∧ 10 ∈ (circuit 30 .live true).down)
      ∧ Wins [⟨.lane 0, .down, 10, 1⟩, ⟨.lane 1, .down, 10, 1⟩] ⟨.lane 0, .down, 10, 1⟩ :=
  ⟨⟨canTake_reset _, by decide⟩, ⟨canTake_reset _, by decide +kernel⟩,
    ⟨canTake _ _ (by decide +kernel), shape _ (by decide +kernel), by decide +kernel⟩, by decide +kernel, by decide +kernel,
    ⟨[], [⟨.lane 1, .down, 10, 1⟩], rfl, by decide, by decide⟩⟩

/-! ### Slots that change hands -/

/-- Circuit 0 owns slot 9 up and slot 10 down, at precedence 2; station 1 is ONLINE. -/
def circuitWhole (st : CircuitState) : State :=
  let s := ((put 1 .online State.reset).setCircuit 0 (some (circuit 1 st true))).setEntry .up 9
    (some { owner := .circuit 0, prec := 2 })
  s.setEntry .down 10 (some { owner := .circuit 0, prec := 2 })

/-- The Reclaim List given. -/
def reclaiming (l : List ReclaimEntry) (s : State) : State := { s with slots := { s.slots with reclaim := l } }

/-- A full Reclaim List. -/
def fullList : List ReclaimEntry := List.replicate 64 ⟨.lane 1, .down, 20, 1⟩

/-- Circuit 0 DISPLACED: slot 9 up is lane 0's, and the circuit waits for it. -/
def circuitWaits : State :=
  reclaiming [⟨.circuit 0, .up, 9, 2⟩] ((circuitWhole .displaced).setEntry .up 9 (some { owner := .lane 0, prec := 1 }))

/-- The clauses of TakesLoss and LaneTold: what each needs of the state and the loss. -/
theorem witness_TakesLoss :
    ((sendingLane.lane 0).engine = .sending ∧ 5 ∈ (sendingLane.lane 0).activeSet
        ∧ (sendingLane.lane 0).queue = packet 1 .sending [] 0 0 :: [])
      ∧ ((laneHolds State.reset).lane 0).engine = .idle
      ∧ ((withWindow (some (window 1 true 0)) [] State.reset).window.window = some (window 1 true 0)
        ∧ (window 1 true 0).lane = 0 ∧ 5 ∈ (window 1 true 0).upSet ∧ 6 ∉ (window 1 true 0).upSet)
      ∧ ((laneHolds State.reset).mapEntry .down 5 = some { owner := .lane 0, prec := 1 }
        ∧ (laneHolds State.reset).slots.reclaim.length < 64)
      ∧ State.reset.circuit 0 = none
      ∧ ((circuitWhole .live).circuit 0 = some (circuit 1 .live true) ∧ (circuit 1 .live true).state ≠ .displaced)
      ∧ (circuitWaits.circuit 0 = some (circuit 1 .displaced true) ∧ circuitWaits.slots.reclaim.length < 64)
      ∧ 64 ≤ (reclaiming fullList (circuitWhole .live)).slots.reclaim.length := by decide +kernel

/-- The clauses of LetsGo: nobody waits; a lane wins; a circuit wins and is whole; a circuit wins and is not whole. -/
theorem witness_LetsGo :
    (∀ e ∈ (laneHolds State.reset).slots.reclaim, ¬(e.dir = .down ∧ e.slot = 5))
      ∧ Wins [⟨.lane 0, .down, 10, 1⟩, ⟨.lane 1, .down, 10, 1⟩] ⟨.lane 0, .down, 10, 1⟩
      ∧ Wins circuitWaits.slots.reclaim ⟨.circuit 0, .up, 9, 2⟩
      ∧ (circuitWaits.freeSlot (.lane 0) (.up, 9)).ownsAll 0 (circuit 1 .displaced true)
      ∧ ¬((circuitWaits.setEntry .down 10 none).freeSlot (.lane 0) (.up, 9)).ownsAll 0 (circuit 1 .displaced true) := by
  refine ⟨by decide +kernel, ⟨[], [⟨.lane 1, .down, 10, 1⟩], rfl, by decide, by decide⟩, ⟨[], [], by decide +kernel, by simp, by simp⟩,
    fun d x hx => ?_, fun h => ?_⟩
  · have hm : ∀ d ∈ [Dir.down, .up], ∀ x ∈ (circuit 1 .displaced true).slots d,
        (circuitWaits.freeSlot (.lane 0) (.up, 9)).mapEntry d x = some { owner := .circuit 0, prec := 2 } := by decide +kernel
    exact ⟨_, hm d (by cases d <;> decide) x hx, rfl⟩
  · obtain ⟨e, he, -⟩ := h .down 10 (by decide)
    have hn : ((circuitWaits.setEntry .down 10 none).freeSlot (.lane 0) (.up, 9)).mapEntry .down 10 = none := by decide +kernel
    rw [hn] at he; cases he

theorem test_laneSet_displaces_circuit :
    gives (.laneSet 7 (laneSetBody 0 3 false [] [9])) (circuitWhole .live) (fun t => decide
        ((t.circuit 0).map (·.state) = some .displaced ∧ t.slots.reclaim = [⟨.circuit 0, .up, 9, 2⟩]
          ∧ t.rep.queue = [.circuitState 0 1 .displaced .live .slotLost (some (.up, 9)) 0])) = true
      ∧ gives (.laneSet 7 (laneSetBody 0 3 false [] [9])) (reclaiming fullList (circuitWhole .live)) (fun t => decide
        (t.circuit 0 = none ∧ t.mapEntry .down 10 = none ∧ t.slots.reclaim = fullList
          ∧ t.rep.queue = [.circuitState 0 1 .closed .live .noReclaim (some (.up, 9)) 0])) = true := by decide +kernel

theorem test_circuitOpen_displaces_sending_lane :
    gives (.circuitOpen 7 (circuitOpenBody 1 3 [9] [5])) (put 1 .online sendingLane) (fun t => decide
      ((t.lane 0).engine = .gap ∧ (t.lane 0).queue = [] ∧ t.slots.reclaim = [⟨.lane 0, .down, 5, 1⟩]
        ∧ t.rep.queue.map (·.kindIndex) = [8, 7])) = true := by decide +kernel

theorem test_laneSet_lets_circuit_regain :
    gives (.laneSet 7 (laneSetBody 0 1 false [] [])) circuitWaits (fun t => decide
      ((t.circuit 0).map (·.state) = some .live ∧ t.slots.reclaim = []
        ∧ t.rep.queue = [.circuitState 0 1 .live .displaced .slotsRegained none 0])) = true := by decide +kernel

/-- In a RUNNING cycle that sampled slot 9 up and slot 10 down to circuit 0. -/
def repeating (c : Option Circuit) : State :=
  (sampled 10 (.circuit 0) (sampled 9 (.circuit 0) (onLine .running true State.reset))).setCircuit 0 c

theorem witness_CircuitOctetsRepeat :
    ((repeating none).pin = .high ∧ (repeating none).line.cycleOpen = true ∧ (repeating none).line.state = .running
        ∧ ((repeating none).line.sampleUp[9 - 5]?).join = some (.circuit 0)
        ∧ ((repeating none).line.sampleDown[10 - 5]?).join = some (.circuit 0))
      ∧ ((repeating (some (circuit 1 .live true))).circuit 0 = some (circuit 1 .live true)
        ∧ (circuit 1 .live true).up[0]? = some 9 ∧ (circuit 1 .live true).down[0]? = some 10)
      ∧ (repeating (some (circuit 1 .live false))).circuit 0 = some (circuit 1 .live false)
      ∧ (repeating none).circuit 0 = none
      ∧ (10 ∉ (circuit 1 .live true).up ∧ 9 ∉ (circuit 1 .live true).down
        ∧ (circuit 1 .live true).outgoing.length = (circuit 1 .live true).down.length)
      ∧ ((repeating none).line.sampleUp[11 - 5]?).join = none := by decide +kernel

/-! ## Witnesses: windows -/

/-- In a RUNNING cycle, station 30 ONLINE and station 1 ONLINE and queued. -/
def bidding : State := withWindow none [1] (put 30 .online (put 1 .online (onLine .running true State.reset)))

theorem witness_BidsClassedAndQueued :
    (bidding.pin = .high ∧ bidding.line.cycleOpen = true ∧ bidding.line.state = .running)
      ∧ ((0x0F#8 : Octet).toNat % 8 ≠ 6 ∧ (0x07#8 : Octet).toNat / 8 = 0 ∧ (0xFA#8 : Octet).toNat / 8 = 31)
      ∧ ((0x0E#8 : Octet) ≠ 0xFF#8 ∧ (0x0E#8 : Octet).toNat % 8 = 6 ∧ (0x0E#8 : Octet).toNat / 8 = 1)
      ∧ ((0xF3#8 : Octet).toNat % 8 = 3 ∧ (0xF3#8 : Octet).toNat / 8 = 30)
      ∧ (1 ∈ bidding.window.queue ∧ (bidding.station 1).state = .online)
      ∧ (30 ∉ bidding.window.queue ∧ (bidding.station 30).state = .online)
      ∧ ((withWindow (some (window 1 false 0)) [] bidding).window.window = some (window 1 false 0))
      ∧ ((onLine .running true State.reset).station 1).state ≠ .online
      ∧ State.reset.line.cycleOpen = false := by decide +kernel

/-- In a RUNNING cycle with a window of station 1 on lane 0 over slot 5, sampled to the lane. -/
def opened (started : Bool) (idle : Nat) : State :=
  withWindow (some (window 1 started idle)) [] (sampled 5 (.lane 0) (put 1 .online (onLine .running true State.reset)))

/-- The window takes the octets of slot 5. -/
theorem opened_takes (started : Bool) (idle : Nat) :
    (opened started idle).pin = .high ∧ (opened started idle).line.cycleOpen = true
      ∧ (opened started idle).line.state = .running
      ∧ (opened started idle).window.window = some (window 1 started idle)
      ∧ ((opened started idle).line.sampleUp[5 - 5]?).join = some (.lane 0) ∧ 5 ∈ (window 1 started idle).upSet :=
  ⟨rfl, rfl, rfl, rfl, rfl, List.mem_singleton.mpr rfl⟩

theorem witness_IdleWindowCounts :
    ((opened true 0).window.window = some (window 1 true 0) ∧ (window 1 true 0).packetStarted = true)
      ∧ ((opened false 2).rx.state = .idle ∧ (window 1 false 2).packetStarted = false
        ∧ (∀ x ∈ (window 1 false 2).upSet, x ≤ 5) ∧ (window 1 false 2).idleRun + 1 < 4)
      ∧ 4 ≤ (window 1 false 3).idleRun + 1
      ∧ (¬(∀ x ∈ ({ window 1 false 0 with upSet := [5, 6] } : Window).upSet, x ≤ 5)
        ∧ 5 ∈ ({ window 1 false 0 with upSet := [5, 6] } : Window).upSet)
      ∧ (State.reset.window.window = none ∧ ((opened false 0).line.sampleUp[6 - 5]?).join = none) := by decide +kernel

/-! ## Witnesses: receiving and sorting -/

/-- The window's packet in its header, with `st` and `hi` received or not. -/
def inHeader (st hi : Option Octet) (s : State) : State :=
  receiving .header { ReceiveRecord.empty with port := some 0x20#8, station := st, lengthHigh := hi, taken := 1 } s

/-- Lane 0's window in the header of a packet, the pool with `free` blocks, `n` records in mailbox 0, which takes all. -/
def sorting (free n : Nat) : State :=
  { withMail takesAll (List.replicate n mail) (inHeader (some 0x01#8) (some 0x02#8) (opened true 0)) with free := free }

theorem witness_HeaderJudgedAtFourthOctet :
    ((inHeader none none (opened true 0)).rx.state = .header
        ∧ (inHeader none none (opened true 0)).rx.record.port = some 0x20#8
        ∧ (inHeader none none (opened true 0)).rx.record.station = none ∧ (window 1 true 0).packetStarted = true)
      ∧ ((inHeader (some 0x01#8) none (opened true 0)).rx.record.station = some 0x01#8
        ∧ (inHeader (some 0x01#8) none (opened true 0)).rx.record.lengthHigh = none)
      ∧ ((inHeader (some 0x02#8) (some 0x00#8) (opened true 0)).rx.record.lengthHigh = some 0x00#8
        ∧ (0x02#8 : Octet).toNat ≠ (window 1 true 0).owner ∧ (0x01#8 : Octet).toNat = (window 1 true 0).owner)
      ∧ ((0x02#8 : Octet).toNat * 256 + (0x00#8 : Octet).toNat ≤ 512
        ∧ 512 < (0x02#8 : Octet).toNat * 256 + (0x01#8 : Octet).toNat)
      ∧ (inHeader (some 0x01#8) (some 0x00#8) (opened true 0)).sort 0x20#8 0x01#8 = none
      ∧ ((sorting 16 7).sort 0x20#8 0x01#8 = some (0, .all) ∧ ((sorting 16 7).mailbox 0).records.length < 8
        ∧ max 1 ((512 + 31) / 32) ≤ (sorting 16 7).free ∧ (sorting 15 7).free < max 1 ((512 + 31) / 32))
      ∧ 8 ≤ ((sorting 16 8).mailbox 0).records.length := by decide +kernel

theorem witness_SortTakesFirstFilter :
    ¬State.reset.mailboxes.head?.any (fun b => b.filter.enabled)
      ∧ (takesAll.enabled = true ∧ takesAll.restriction = none ∧ takesAll.mode = .all)
      ∧ (({ takesAll with general := true } : Filter).general = true ∧ (0xFE#8 : Octet) = 0xFE#8)
      ∧ ({ takesAll with mode := .either } : Filter).mode = .either
      ∧ (∀ i ∈ List.range 8, (0x0F#8 : Octet).getLsbD i = false → (0x2A#8 : Octet).getLsbD i = (0x20#8 : Octet).getLsbD i)
      ∧ (∃ i ∈ List.range 8, (0x0F#8 : Octet).getLsbD i = false ∧ (0x3A#8 : Octet).getLsbD i ≠ (0x20#8 : Octet).getLsbD i)
      ∧ (0 < (sorting 16 7).mailboxes.length ∧ ((sorting 16 7).mailbox 0).filter.accepts 0x20#8 0x01#8 = some .all)
      ∧ ∀ m ∈ List.range 8, (State.reset.mailbox m).filter.accepts 0x20#8 0x01#8 = none := by decide +kernel

/-- The window's packet past its header. -/
def past (st : ReceiverState) (length taken : Nat) (checkHigh : Option Octet) : State :=
  receiving st { headed length taken with checkHigh := checkHigh, check := 0x1234#16 } (opened true 0)

theorem witness_BodyAndCheckDecidePacket :
    ((past .body 1 4 none).rx.record.length = some 1 ∧ (past .body 1 4 none).rx.state = .body
        ∧ (past .body 1 4 none).rx.record.taken + 1 = 1 + 4)
      ∧ ((past .check 1 5 none).rx.state = .check ∧ (past .check 1 5 none).rx.record.checkHigh = none)
      ∧ ((past .check 0 5 (some 0x12#8)).rx.record.checkHigh = some 0x12#8
        ∧ (past .check 0 5 (some 0x12#8)).rx.record.port = some 0x20#8
        ∧ (past .check 0 5 (some 0x12#8)).rx.record.station = some 0x01#8
        ∧ (past .check 0 5 (some 0x12#8)).rx.record.mailbox = some 0
        ∧ (past .check 0 5 (some 0x12#8)).rx.record.matchKind = some .a
        ∧ word16 0x12#8 0x34#8 = (past .check 0 5 (some 0x12#8)).rx.record.check
        ∧ word16 0x12#8 0x35#8 ≠ (past .check 0 5 (some 0x12#8)).rx.record.check)
      ∧ ((past .drain 512 516 none).rx.state = .drain ∧ (past .drain 512 516 none).rx.record.taken + 1 ≠ 512 + 6
        ∧ (past .drain 512 517 none).rx.record.taken + 1 = 512 + 6) := by decide +kernel

theorem witness_MailboxSetAndTake :
    (CanTake State.reset ⟨0x16#8, 7, [8#8, 0#8, 0#8, 0#8, 0#8, 0#8, 0xFF#8]⟩ ∧ ¬(8#8 : Octet).toNat ≤ 7)
      ∧ (CanTake State.reset ⟨0x16#8, 7, [7#8, 2#8, 0#8, 0#8, 0#8, 0#8, 0xFF#8]⟩ ∧ ¬(2#8 : Octet).toNat ≤ 1)
      ∧ (CanTake State.reset ⟨0x16#8, 7, [7#8, 1#8, 2#8, 0xFE#8, 0xFE#8, 1#8, 30#8]⟩
        ∧ ((7#8 : Octet).toNat ≤ 7 ∧ (1#8 : Octet).toNat ≤ 1 ∧ (2#8 : Octet).toNat ≤ 2 ∧ (0xFE#8 : Octet) ≠ 0xFF#8
          ∧ 1 ≤ (30#8 : Octet).toNat ∧ (30#8 : Octet).toNat ≤ 30))
      ∧ (CanTake State.reset ⟨0x17#8, 7, [8#8]⟩ ∧ 8 ≤ (8#8 : Octet).toNat)
      ∧ (CanTake State.reset ⟨0x17#8, 7, [7#8]⟩ ∧ (7#8 : Octet).toNat < 8 ∧ (State.reset.mailbox 7).records = [])
      ∧ (CanTake (withMail takesAll [mail] State.reset) ⟨0x17#8, 7, [0#8]⟩
        ∧ ((withMail takesAll [mail] State.reset).mailbox 0).records = mail :: []) :=
  ⟨⟨canTake_reset _, by decide⟩, ⟨canTake_reset _, by decide⟩, ⟨canTake_reset _, by decide⟩, ⟨canTake_reset _, by decide⟩,
    ⟨canTake_reset _, by decide, by decide +kernel⟩, ⟨canTake _ _ (by decide +kernel), by decide +kernel⟩⟩

theorem witness_MailboxFlushEmpties :
    (CanTake State.reset ⟨0x18#8, 7, [8#8]⟩ ∧ 8 ≤ (8#8 : Octet).toNat)
      ∧ (CanTake State.reset ⟨0x18#8, 7, [7#8]⟩ ∧ (7#8 : Octet).toNat < 8) :=
  ⟨⟨canTake_reset _, by decide⟩, ⟨canTake_reset _, by decide⟩⟩

/-! ## Witnesses: packets -/

/-- Lane 3 with `n` short packets queued, `done` completions waiting, `free` blocks free. -/
def loaded (n done free : Nat) : State :=
  { modRep (fun u => { u with entries := List.replicate done (packetDone 9) })
      (withLane 3 .idle [] (List.replicate n (packet 1 .ready [] 0 0)) State.reset) with
    free := free }

theorem witness_PacketSendQueuesPacket :
    (CanTake State.reset ⟨0x11#8, 7, [4#8, 1#8, 0#8, 0#8, 0#8] ++ []⟩ ∧ ¬(4#8 : Octet).toNat ≤ 3)
      ∧ (CanTake State.reset ⟨0x11#8, 7, [3#8, 31#8, 0#8, 2#8, 1#8] ++ []⟩
        ∧ ¬(2#8 : Octet).toNat * 256 + (1#8 : Octet).toNat ≤ 512)
      ∧ (CanTake State.reset ⟨0x11#8, 7, [3#8, 31#8, 0#8, 2#8, 0#8] ++ List.replicate 512 0#8⟩
        ∧ (List.replicate 512 0#8).length ≤ 512 ∧ (31#8 : Octet).toNat ≤ 31
        ∧ (2#8 : Octet).toNat * 256 + (0#8 : Octet).toNat = 512)
      ∧ 16 ≤ ((loaded 16 0 256).lane 3).queue.length
      ∧ (((loaded 15 81 256).lane 3).queue.length < 16 ∧ 96 ≤ (loaded 15 81 256).placesHeld
        ∧ (loaded 15 80 256).placesHeld < 96)
      ∧ ((loaded 0 0 47).free < 16 + (loaded 0 0 47).line.settings.receiveReserve
        ∧ 16 + (loaded 0 0 48).line.settings.receiveReserve ≤ (loaded 0 0 48).free) :=
  ⟨⟨canTake_reset _, by decide⟩, ⟨canTake_reset _, by decide⟩,
    ⟨canTake_reset _, by decide +kernel, by decide, by decide⟩, by decide +kernel, by decide +kernel, by decide +kernel⟩

/-- Lane 3 with the packet behind one that is sent, and a finished packet 9 waiting on the Completion List. -/
def holds (p : Packet) : State :=
  modRep (fun u => { u with entries := [packetDone 9] }) (withLane 3 .idle [] [packet 1 .ready [] 0 0, p] State.reset)

theorem witness_PacketAddAppendsSegment :
    (CanTake (holds (packet 2 .filling [0x41#8] 2 0)) ⟨0x12#8, 7, [0#8, 2#8] ++ [0x42#8]⟩
        ∧ Shape (holds (packet 2 .filling [0x41#8] 2 0)) ∧ LiveHandles (holds (packet 2 .filling [0x41#8] 2 0))
        ∧ ((holds (packet 2 .filling [0x41#8] 2 0)).lane 3).queue
          = [packet 1 .ready [] 0 0] ++ packet 2 .filling [0x41#8] 2 0 :: []
        ∧ (packet 2 .filling [0x41#8] 2 0).body.length + [0x42#8].length ≤ (packet 2 .filling [0x41#8] 2 0).declared)
      ∧ (packet 2 .filling [0x41#8] 2 0).declared < (packet 2 .filling [0x41#8] 2 0).body.length + [0x42#8, 0x43#8].length
      ∧ (packet 2 .aborting [0x41#8] 2 5).state = .aborting
      ∧ ((packet 2 .sending [0x41#8, 0x42#8] 2 5).body.length = (packet 2 .sending [0x41#8, 0x42#8] 2 5).declared)
      ∧ ((packet 2 .sending [0x41#8] 2 5).body.length ≠ (packet 2 .sending [0x41#8] 2 5).declared)
      ∧ (∀ l ∈ List.range 4, ∀ p ∈ ((holds (packet 2 .ready [] 0 0)).lane l).queue, p.handle ≠ 9)
      ∧ (holds (packet 2 .ready [] 0 0)).rep.entries = [packetDone 9]
      ∧ ∀ l ∈ List.range 4, ∀ p ∈ ((holds (packet 2 .ready [] 0 0)).lane l).queue, p.handle ≠ 8 :=
  ⟨⟨canTake _ _ (by decide +kernel), shape _ (by decide +kernel), handles _ (by decide +kernel), by decide +kernel, by decide⟩,
    by decide, by decide, by decide, by decide, by decide +kernel, rfl, by decide +kernel⟩

theorem witness_PacketCancelStopsPacket :
    (CanTake (holds (packet 2 .filling [0x41#8] 2 0)) ⟨0x13#8, 7, [0#8, 2#8]⟩
        ∧ Shape (holds (packet 2 .filling [0x41#8] 2 0)) ∧ LiveHandles (holds (packet 2 .filling [0x41#8] 2 0))
        ∧ (packet 2 .filling [0x41#8] 2 0).state = .filling)
      ∧ (packet 2 .ready [0x41#8] 1 0).state = .ready
      ∧ (CanTake sendingLane ⟨0x13#8, 7, [0#8, 1#8]⟩ ∧ Shape sendingLane ∧ LiveHandles sendingLane
        ∧ (sendingLane.lane 0).queue = [] ++ packet 1 .sending [] 0 0 :: [])
      ∧ (packet 1 .aborting [] 0 0).state = .aborting
      ∧ (CanTake (holds (packet 2 .ready [] 0 0)) ⟨0x13#8, 7, [0#8, 9#8]⟩
        ∧ (holds (packet 2 .ready [] 0 0)).rep.entries = [packetDone 9]) :=
  ⟨⟨canTake _ _ (by decide +kernel), shape _ (by decide +kernel), handles _ (by decide +kernel), by decide⟩, by decide,
    ⟨canTake _ _ (by decide +kernel), shape _ (by decide +kernel), handles _ (by decide +kernel), by decide +kernel⟩,
    by decide, ⟨canTake _ _ (by decide +kernel), rfl⟩⟩

theorem witness_LaneResetFinishesQueue :
    (CanTake State.reset ⟨0x14#8, 7, [4#8]⟩ ∧ 4 ≤ (4#8 : Octet).toNat)
      ∧ (CanTake sendingLane ⟨0x14#8, 7, [3#8]⟩ ∧ (3#8 : Octet).toNat < 4) :=
  ⟨⟨canTake_reset _, by decide⟩, ⟨canTake _ _ (by decide +kernel), by decide⟩⟩

/-- In a RUNNING cycle that sampled slot 5 to lane 0, the engine as given with slot 5 active. -/
def turning (e : EngineState) (q : List Packet) : State :=
  withLane 0 e [5] q (sampled 5 (.lane 0) (onLine .running true State.reset))

/-- A packet of one body octet at a position. -/
def atPosition (st : PacketState) (position : Nat) : Packet := packet 1 st [0x41#8] 1 position

theorem witness_LaneTurnSendsOctet :
    ((turning .idle []).pin = .high ∧ (turning .idle []).line.cycleOpen = true ∧ (turning .idle []).line.state = .running
        ∧ ((turning .idle []).line.sampleDown[5 - 5]?).join = some (.lane 0))
      ∧ ((turning .idle []).lane 0).engine = .idle ∧ ((turning .gap []).lane 0).engine = .gap
      ∧ (6 ∉ ((turning .sending []).lane 0).activeSet ∧ 5 ∈ ((turning .sending []).lane 0).activeSet)
      ∧ ((turning .sending [atPosition .sending 3]).lane 0).queue = atPosition .sending 3 :: []
      ∧ ([0x20#8, 0x01#8, 0x00#8, 0x01#8] : List Octet)[(atPosition .sending 3).position]? = some 0x01#8
      ∧ (4 ≤ (atPosition .sending 4).position ∧ (atPosition .sending 4).position < (atPosition .sending 4).declared + 4
        ∧ (atPosition .sending 4).body[(atPosition .sending 4).position - 4]? = some 0x41#8)
      ∧ (packet 1 .sending [] 1 4).body[(packet 1 .sending [] 1 4).position - 4]? = none
      ∧ (atPosition .sending 5).position = (atPosition .sending 5).declared + 4
      ∧ (atPosition .sending 6).position = (atPosition .sending 6).declared + 5
      ∧ ((atPosition .aborting 4).state = .aborting ∧ (turning .aborting []).lane 0 = { (turning .idle []).lane 0 with engine := .aborting })
      ∧ ((turning .idle []).line.sampleDown[6 - 5]?).join = none
      ∧ ∀ q ∈ [packet 2 .ready [] 0 0], q.handle ≠ (atPosition .sending 6).handle := by decide +kernel

/-! ## Witnesses: what every step keeps -/

/-- The RUNNING line above, with a bid of nobody next. -/
def aboutToStep : State := { busyLine with pending := [.bidArrival 0xFF#8] }

theorem aboutToStep_next : ∃ t, step aboutToStep = .next t := ⟨_, rfl⟩

theorem witness_StepKeepsShape : Shape aboutToStep ∧ ∃ t, step aboutToStep = .next t :=
  ⟨shape _ (by decide +kernel), aboutToStep_next⟩

theorem witness_StepKeepsLiveHandles : LiveHandles aboutToStep ∧ ∃ t, step aboutToStep = .next t :=
  ⟨handles _ (by decide +kernel), aboutToStep_next⟩

theorem witness_StepKeepsPoolTotal :
    (Shape aboutToStep ∧ LiveHandles aboutToStep ∧ PoolSound aboutToStep) ∧ ∃ t, step aboutToStep = .next t :=
  ⟨⟨shape _ (by decide +kernel), handles _ (by decide +kernel),
    ⟨by decide +kernel, fun h => by rcases h with h | h <;> exact absurd h (by decide +kernel)⟩⟩, aboutToStep_next⟩

theorem witness_StepKeepsReportsInOrder : ReportsSound aboutToStep ∧ ∃ t, step aboutToStep = .next t := by
  refine ⟨⟨by decide +kernel, by decide +kernel, fun i r h => ?_, List.nil_suffix, .inr ⟨rfl, rfl⟩⟩, aboutToStep_next⟩
  cases i with
  | zero => cases h; rfl
  | succ n => cases h

theorem witness_StepKeepsLinkSettled : LinkSound aboutToStep ∧ ∃ t, step aboutToStep = .next t := by
  refine ⟨⟨by decide +kernel, by decide +kernel, ?_, ?_, ?_, fun h => absurd rfl h, fun h => absurd rfl h⟩, aboutToStep_next⟩
  · exact fun h => by cases h
  · exact fun h => by rcases h with h | h <;> exact absurd h (by decide +kernel)
  · exact fun _ _ h => by cases h

/-- A lane with nothing in it is sound. -/
theorem freshLane : Lane.fresh.Sound :=
  ⟨by decide, fun p h => (List.not_mem_nil h).elim, by decide, by simp [Lane.fresh], by simp [Lane.fresh], fun _ => rfl, by decide⟩

theorem witness_StepKeepsLanesSound :
    (LiveHandles aboutToStep ∧ LanesSound aboutToStep) ∧ ∃ t, step aboutToStep = .next t :=
  ⟨⟨handles _ (by decide +kernel), fun x hx => by
    have : x = Lane.fresh := (List.mem_replicate.mp hx).2
    rw [this]; exact freshLane⟩, aboutToStep_next⟩

theorem witness_StepKeepsWindowSound : WindowSound aboutToStep ∧ ∃ t, step aboutToStep = .next t :=
  ⟨noWindow _ (by decide +kernel), aboutToStep_next⟩

/-- The map gives the slot to the owner, as a check. -/
def owned (s : State) (o : Owner) (d : Dir) (x : Nat) : Bool := (s.mapEntry d x).any fun e => decide (e.owner = o)

/-- The owner may own the slot, as a check. -/
def mayOwnOk (s : State) (o : Owner) (d : Dir) (x : Nat) : Bool :=
  match o with
  | .lane _ => true
  | .circuit n => (s.circuit n).any fun c => decide (x ∈ c.slots d)

/-- One open circuit against the map and the Reclaim List, as a check. -/
def circuitOk (s : State) (n : Nat) (c : Circuit) : Bool :=
  let all := fun (p : Dir → Nat → Bool) => [Dir.down, .up].all fun d => (c.slots d).all (p d)
  decide (1 ≤ c.up.length ∧ c.up.length ≤ 4 ∧ c.down.length = c.up.length ∧ c.down.Nodup ∧ c.up.Nodup ∧ c.state ≠ .closed)
    && all (fun _ x => decide (5 ≤ x ∧ x ≤ 47)) && (decide (c.state = .live ∨ c.state = .muted) == all (owned s (.circuit n)))
    && all fun d x => owned s (.circuit n) d x
      || s.slots.reclaim.any fun e => decide (e.owner = .circuit n ∧ e.dir = d ∧ e.slot = x)

/-- The Slot Map, the Reclaim List and the circuits, as a check. -/
def mapOk (s : State) : Bool :=
  shapeOk s && decide (s.slots.reclaim.length ≤ 64 ∧ (s.slots.reclaim.map fun e => (e.owner, e.dir, e.slot)).Nodup)
    && ([Dir.down, .up].all fun d => (List.range 48).all fun x => (s.mapEntry d x).all fun e =>
      decide (s.ownerPrec e.owner = some e.prec) && mayOwnOk s e.owner d x)
    && (s.slots.reclaim.all fun e => decide (s.ownerPrec e.owner = some e.prec ∧ 5 ≤ e.slot ∧ e.slot ≤ 47)
      && mayOwnOk s e.owner e.dir e.slot && !owned s e.owner e.dir e.slot)
    && (List.range 12).all fun n => (s.circuit n).all (circuitOk s n)

theorem owned_iff (s : State) (o : Owner) (d : Dir) (x : Nat) : owned s o d x = true ↔ s.owns o d x := by
  unfold owned State.owns; cases s.mapEntry d x <;> simp

theorem mayOwn_of_ok (s : State) (o : Owner) (d : Dir) (x : Nat) (h : mayOwnOk s o d x = true) : s.mayOwn o d x := by
  cases o with
  | lane l => trivial
  | circuit n =>
    simp only [mayOwnOk] at h
    cases hc : s.circuit n with
    | none => rw [hc] at h; cases h
    | some c => rw [hc] at h; exact ⟨c, hc, by cases d <;> exact of_decide_eq_true h⟩

theorem dirs_all (p : Dir → Bool) (h : [Dir.down, .up].all p = true) (d : Dir) : p d = true :=
  List.all_eq_true.mp h d (by cases d <;> decide)

theorem mapSound (s : State) (h : mapOk s = true) : MapSound s := by
  unfold mapOk at h
  simp only [Bool.and_eq_true] at h
  obtain ⟨⟨⟨⟨h₀, h₁⟩, h₂⟩, h₃⟩, h₄⟩ := h
  have hs := shape s h₀
  have h₁ := of_decide_eq_true h₁
  have entries : ∀ d x e, s.mapEntry d x = some e → s.ownerPrec e.owner = some e.prec ∧ mayOwnOk s e.owner d x = true := by
    intro d x e he
    have hx : x < 48 := by
      by_contra hx
      have hl : (s.slots.side d).length = 43 := by cases d; exact hs.down; exact hs.up
      unfold State.mapEntry atSlot at he
      split at he
      · rw [List.getElem?_eq_none (by rw [hl]; show 43 ≤ x - 5; omega)] at he; cases he
      · cases he
    have := List.all_eq_true.mp (dirs_all _ h₂ d) x (List.mem_range.mpr hx)
    rw [he] at this
    simpa using this
  have waits : ∀ e ∈ s.slots.reclaim, ((s.ownerPrec e.owner = some e.prec ∧ 5 ≤ e.slot ∧ e.slot ≤ 47)
      ∧ mayOwnOk s e.owner e.dir e.slot = true) ∧ owned s e.owner e.dir e.slot = false := by
    intro e he
    simpa using List.all_eq_true.mp h₃ e he
  have open' : ∀ n c, s.circuit n = some c → circuitOk s n c = true := by
    intro n c hc
    have hn : n < 12 := by
      by_contra hn
      unfold State.circuit at hc
      rw [List.getElem?_eq_none (by rw [hs.circuits]; omega)] at hc; cases hc
    have := List.all_eq_true.mp h₄ n (List.mem_range.mpr hn)
    rw [hc] at this
    exact this
  have parts : ∀ n c, s.circuit n = some c → (c.Sound ∧ c.state ≠ .closed)
      ∧ (c.state = .live ∨ c.state = .muted ↔ s.ownsAll n c)
      ∧ ∀ d, ∀ x ∈ c.slots d, ¬s.owns (.circuit n) d x → ∃ e ∈ s.slots.reclaim, e.owner = .circuit n ∧ e.dir = d ∧ e.slot = x := by
    intro n c hc
    have ho := open' n c hc
    unfold circuitOk at ho
    simp only [Bool.and_eq_true, beq_iff_eq] at ho
    obtain ⟨⟨⟨a, b⟩, w⟩, z⟩ := ho
    have a := of_decide_eq_true a
    refine ⟨⟨⟨⟨a.1, a.2.1, a.2.2.1⟩, fun d => ?_, fun d x hx => ?_⟩, a.2.2.2.2.2⟩, ?_, fun d x hx hno => ?_⟩
    · cases d; exact a.2.2.2.1; exact a.2.2.2.2.1
    · exact of_decide_eq_true (List.all_eq_true.mp (dirs_all _ b d) x hx)
    · rw [← decide_eq_true_iff (p := c.state = .live ∨ c.state = .muted), w]
      constructor
      · exact fun hw d x hx => (owned_iff ..).mp (List.all_eq_true.mp (dirs_all _ hw d) x hx)
      · exact fun hw => List.all_eq_true.mpr fun d _ => List.all_eq_true.mpr fun x hx => (owned_iff ..).mpr (hw d x hx)
    · rcases Bool.or_eq_true_iff.mp (List.all_eq_true.mp (dirs_all _ z d) x hx) with hz | hz
      · exact absurd ((owned_iff ..).mp hz) hno
      · obtain ⟨e, he, hd⟩ := List.any_eq_true.mp hz
        exact ⟨e, he, of_decide_eq_true hd⟩
  exact ⟨fun d x e he => ⟨(entries d x e he).1, mayOwn_of_ok _ _ _ _ (entries d x e he).2⟩,
    fun e he => ⟨(waits e he).1.1.1, mayOwn_of_ok _ _ _ _ (waits e he).1.2⟩, h₁.1, fun e he => (waits e he).1.1.2, h₁.2,
    fun e he ho => by simpa [(owned_iff ..).mpr ho] using (waits e he).2,
    fun n c hc => (parts n c hc).1, fun n c hc => (parts n c hc).2.1, fun n c hc => (parts n c hc).2.2⟩

/-- The RUNNING line above, circuit 0 DISPLACED: it has slot 9 up and waits for slot 10 down, which is lane 0's. -/
def mapped : State :=
  let s := (aboutToStep.setCircuit 0 (some (circuit 1 .displaced false))).setEntry .up 9 (some { owner := .circuit 0, prec := 2 })
  let s := s.setEntry .down 10 (some { owner := .lane 0, prec := 1 })
  { s with slots := { s.slots with reclaim := [⟨.circuit 0, .down, 10, 2⟩] } }

theorem witness_StepKeepsMapSound : (Shape mapped ∧ MapSound mapped) ∧ ∃ t, step mapped = .next t :=
  ⟨⟨shape _ (by decide +kernel), mapSound _ (by decide +kernel)⟩, ⟨_, rfl⟩⟩

end Sys2Proof.Tests
end

section
/-! SUPPORT. The sort decision (R144, R145): what a filter makes of a packet, which mailbox the sort names, and O43. -/

namespace Sys2Proof.Machine

/-! ## The port test (R144) -/

section

variable {f : Filter} {p : Octet}

theorem Filter.portTest_general (h : f.general = true ∧ p = 0xFE#8) : f.portTest p = some .general := if_pos h

theorem Filter.portTest_either (h : ¬(f.general = true ∧ p = 0xFE#8)) (hmode : f.mode = .either) :
    f.portTest p = if p = f.portA then some .a else if p = f.portB then some .b else none := by
  rw [portTest, if_neg h, hmode]

theorem Filter.portTest_masked (h : ¬(f.general = true ∧ p = 0xFE#8)) (hmode : f.mode = .masked) :
    f.portTest p = if (p ^^^ f.portA) &&& ~~~f.portB = 0#8 then some .masked else none := by
  rw [portTest, if_neg h, hmode]

theorem Filter.portTest_all (h : ¬(f.general = true ∧ p = 0xFE#8)) (hmode : f.mode = .all) :
    f.portTest p = some .all := by
  rw [portTest, if_neg h, hmode]

end

/-- The masked test bit by bit: the port agrees with A wherever the mask B has a 0. -/
theorem masked_eq_zero_iff {w : Nat} (p a b : BitVec w) :
    (p ^^^ a) &&& ~~~b = 0#w ↔ ∀ i, i < w → b.getLsbD i = false → p.getLsbD i = a.getLsbD i := by
  have bit : ∀ i, i < w → (((p ^^^ a) &&& ~~~b).getLsbD i = (0#w).getLsbD i
      ↔ (b.getLsbD i = false → p.getLsbD i = a.getLsbD i)) := by
    intro i hi
    simp only [BitVec.getLsbD_and, BitVec.getLsbD_xor, BitVec.getLsbD_not, BitVec.getLsbD_zero, hi, decide_true]
    cases b.getLsbD i <;> simp
  constructor
  · intro h i hi
    exact (bit i hi).mp (by rw [h])
  · intro h
    exact BitVec.eq_of_getLsbD_eq fun i hi => (bit i hi).mpr (h i hi)

/-! ## Enabling and the station restriction (R144) -/

section

variable {f : Filter} {st : Octet} (p : Octet)

theorem Filter.accepts_of_allowed (h : f.enabled = true ∧ (f.restriction = none ∨ f.restriction = some st.toNat)) :
    f.accepts p st = f.portTest p := by
  obtain ⟨hon, hfree | hstation⟩ := h
  · rw [accepts, if_pos hon, hfree]
  · simp [accepts, hon, hstation]

theorem Filter.accepts_of_not_allowed
    (h : ¬(f.enabled = true ∧ (f.restriction = none ∨ f.restriction = some st.toNat))) : f.accepts p st = none := by
  by_cases hon : f.enabled = true
  · cases hr : f.restriction with
    | none => exact absurd ⟨hon, .inl hr⟩ h
    | some a =>
      have hother : st.toNat ≠ a := fun ha => h ⟨hon, .inr (ha ▸ hr)⟩
      simp [accepts, hon, hr, hother]
  · exact if_neg hon

end

/-! ## The search (R144) -/

theorem State.mailbox_eq_getElem (s : State) {m : Nat} (hm : m < s.mailboxes.length) : s.mailbox m = s.mailboxes[m] := by
  rw [State.mailbox, List.getElem?_eq_getElem hm, Option.getD_some]

section

variable {p st : Octet}

theorem sortFrom_of_first {k : MatchKind} (ms : List Mailbox) (n m : Nat) (hm : m < ms.length)
    (hk : ms[m].filter.accepts p st = some k) (hbefore : ∀ j (hj : j < m), ms[j].filter.accepts p st = none) :
    sortFrom p st n ms = some (n + m, k) := by
  induction ms generalizing n m with
  | nil => cases hm
  | cons b rest ih =>
    cases m with
    | zero =>
      have hb : b.filter.accepts p st = some k := hk
      simp [sortFrom, hb]
    | succ m =>
      have hb : b.filter.accepts p st = none := hbefore 0 m.succ_pos
      have hrest : sortFrom p st (n + 1) rest = some (n + 1 + m, k) :=
        ih (n + 1) m (Nat.lt_of_succ_lt_succ hm) hk fun j hj => hbefore (j + 1) (Nat.succ_lt_succ hj)
      simp [sortFrom, hb, hrest, Nat.add_assoc, Nat.add_comm 1 m]

theorem sortFrom_eq_none (ms : List Mailbox) (n : Nat) (h : ∀ b ∈ ms, b.filter.accepts p st = none) :
    sortFrom p st n ms = none := by
  induction ms generalizing n with
  | nil => rfl
  | cons b rest ih =>
    obtain ⟨hb, hrest⟩ := List.forall_mem_cons.mp h
    simp [sortFrom, hb, ih (n + 1) hrest]

variable (s : State)

theorem State.sort_of_first {m : Nat} {k : MatchKind} (hm : m < s.mailboxes.length)
    (hk : (s.mailbox m).filter.accepts p st = some k) (hbefore : ∀ j, j < m → (s.mailbox j).filter.accepts p st = none) :
    s.sort p st = some (m, k) := by
  rw [s.mailbox_eq_getElem hm] at hk
  have hfirst := sortFrom_of_first s.mailboxes 0 m hm hk fun j hj => by
    rw [← s.mailbox_eq_getElem (hj.trans hm)]
    exact hbefore j hj
  rwa [Nat.zero_add] at hfirst

theorem State.sort_eq_none (h : ∀ m, m < s.mailboxes.length → (s.mailbox m).filter.accepts p st = none) :
    s.sort p st = none := by
  refine sortFrom_eq_none s.mailboxes 0 fun b hb => ?_
  obtain ⟨m, hm, rfl⟩ := List.mem_iff_getElem.mp hb
  rw [← s.mailbox_eq_getElem hm]
  exact h m hm

end

/-- Settles O43: each clause about one filter is its station restriction followed by one row of the port test, and the search is
an induction on the list of mailboxes. -/
theorem sortTakesFirstFilter : Obligations.SortTakesFirstFilter := by
  refine ⟨fun f p st => ⟨f.accepts_of_not_allowed p, ?general, ?either, ?masked, ?all⟩,
    fun s p st => ⟨fun m k => s.sort_of_first, s.sort_eq_none⟩⟩
  case general =>
    intro hallowed hgeneral
    rw [f.accepts_of_allowed p hallowed, f.portTest_general hgeneral]
  case either =>
    intro hallowed hport hmode
    rw [f.accepts_of_allowed p hallowed, f.portTest_either hport hmode]
  case masked =>
    intro hallowed hport hmode
    rw [f.accepts_of_allowed p hallowed, f.portTest_masked hport hmode]
    constructor
    · exact fun hagree => if_pos ((masked_eq_zero_iff p f.portA f.portB).mpr hagree)
    · rintro ⟨i, hi, hb, hdiffer⟩
      exact if_neg fun hzero => hdiffer ((masked_eq_zero_iff p f.portA f.portB).mp hzero i hi hb)
  case all =>
    intro hallowed hport hmode
    rw [f.accepts_of_allowed p hallowed, f.portTest_all hport hmode]

end Sys2Proof.Machine
end

section
/-! SUPPORT. Coalescing (R176, R177): which report of a list a fold reaches, what each kind is folded into, the bound on unsent
reports of one key that handing over, the transfer and merging keep, and O13. -/

namespace Sys2Proof.Machine

/-! ## The report a fold reaches -/

section

variable {p : Report → Bool} {f : Report → Report} {k : Nat}

/-- Folding changes the report of the kind that has `k` of its kind before it, and nothing else. -/
theorem foldInto_of_countP_eq {A : List Report} {r : Report} (C : List Report) (hA : A.countP p = k) (hr : p r = true) :
    foldInto p f k (A ++ r :: C) = some (A ++ f r :: C) := by
  induction A generalizing k with
  | nil =>
    obtain rfl : 0 = k := hA
    exact foldInto_here p f r C hr
  | cons x A ih =>
    cases hx : p x with
    | false =>
      have hrest : A.countP p = k := by rwa [List.countP_cons_of_neg (by simp [hx])] at hA
      simp [foldInto_skip p f k x _ hx, ih hrest]
    | true =>
      rw [List.countP_cons_of_pos hx] at hA
      subst hA
      simp [foldInto_pass p f _ x _ hx, ih rfl]

theorem foldInto_eq_none_iff {q : List Report} : foldInto p f k q = none ↔ q.countP p ≤ k := by
  refine ⟨foldInto_none_countP p f k q, fun h => ?_⟩
  induction q generalizing k with
  | nil => rfl
  | cons x q ih =>
    cases hx : p x with
    | false =>
      rw [List.countP_cons_of_neg (by simp [hx])] at h
      simp [foldInto_skip p f k x q hx, ih h]
    | true =>
      rw [List.countP_cons_of_pos hx] at h
      obtain ⟨m, rfl⟩ : ∃ m, k = m + 1 := ⟨k - 1, by omega⟩
      simp [foldInto_pass p f m x q hx, ih (Nat.le_of_succ_le_succ h)]

theorem foldInto_eq_self {q q' : List Report} (hf : ∀ r, f r = r) (h : foldInto p f k q = some q') : q' = q := by
  induction q generalizing k q' with
  | nil => cases h
  | cons x q ih =>
    cases hx : p x with
    | false =>
      rw [foldInto_skip p f k x q hx] at h
      obtain ⟨w, hw, rfl⟩ := Option.map_eq_some_iff.mp h
      rw [ih hw]
    | true =>
      cases k with
      | zero =>
        rw [foldInto_here p f x q hx, hf x] at h
        exact (Option.some.inj h).symm
      | succ k =>
        rw [foldInto_pass p f k x q hx] at h
        obtain ⟨w, hw, rfl⟩ := Option.map_eq_some_iff.mp h
        rw [ih hw]

end

/-! ## What each kind is folded into (R176, R177) -/

section

variable {r : Report} (q : List Report)

theorem coalesce_of_isConditionOf {a : Nat} (h : r.isConditionOf a = true) :
    coalesce q r = foldInto (Report.isConditionOf a) (fun old => old.fold r) 1 q := by
  cases r with
  | condition a' => rw [← (beq_iff_eq.mp h : a' = a)]; rfl
  | _ => cases h

theorem coalesce_of_isMailWaitingOf {m : Nat} (h : r.isMailWaitingOf m = true) :
    coalesce q r = foldInto (Report.isMailWaitingOf m) (fun old => old.fold r) 0 q := by
  cases r with
  | mailWaiting m' => rw [← (beq_iff_eq.mp h : m' = m)]; rfl
  | _ => cases h

theorem coalesce_of_isMailDroppedOf {m : Nat} (h : r.isMailDroppedOf m = true) :
    coalesce q r = foldInto (Report.isMailDroppedOf m) (fun old => old.fold r) 0 q := by
  cases r with
  | mailDropped m' => rw [← (beq_iff_eq.mp h : m' = m)]; rfl
  | _ => cases h

theorem coalesce_of_isLinkFault (h : r.isLinkFault = true) :
    coalesce q r = foldInto Report.isLinkFault (fun old => old.fold r) 0 q := by
  cases r with
  | linkFault => rfl
  | _ => cases h

end

section

variable {q : List Report}

@[simp] theorem isConditionOf_condition (a acc : Nat) (rep : Option Nat) (sk : Nat) (cy : BitVec 16) :
    (Report.condition a acc rep sk cy).isConditionOf a = true := beq_self_eq_true a

@[simp] theorem isMailDroppedOf_mailDropped (m full nob src : Nat) (p : Octet) (cy : BitVec 16) :
    (Report.mailDropped m full nob src p cy).isMailDroppedOf m = true := beq_self_eq_true m

/-- A MAIL_WAITING leaves the unsent report it finds as it is (R177). -/
theorem fold_mailWaiting (old : Report) (m src : Nat) (p : Octet) (len : Nat) (st : BitVec 16) :
    old.fold (.mailWaiting m src p len st) = old := by
  cases old <;> rfl

theorem coalesce_mailWaiting (m src : Nat) (p : Octet) (len : Nat) (st : BitVec 16)
    (h : 0 < q.countP (Report.isMailWaitingOf m)) : coalesce q (.mailWaiting m src p len st) = some q := by
  cases hq : coalesce q (.mailWaiting m src p len st) with
  | none => exact absurd (foldInto_eq_none_iff.mp hq) (Nat.not_le.mpr h)
  | some q' => rw [foldInto_eq_self (fold_mailWaiting · m src p len st) hq]

theorem coalesce_of_other_kind {r : Report} (hcondition : ∀ a acc rep sk cy, r ≠ .condition a acc rep sk cy)
    (hwaiting : ∀ m src p len st, r ≠ .mailWaiting m src p len st)
    (hdropped : ∀ m full nob src p cy, r ≠ .mailDropped m full nob src p cy) (hfault : ∀ k, r ≠ .linkFault k) :
    coalesce q r = none := by
  cases r with
  | condition a acc rep sk cy => exact absurd rfl (hcondition a acc rep sk cy)
  | mailWaiting m src p len st => exact absurd rfl (hwaiting m src p len st)
  | mailDropped m full nob src p cy => exact absurd rfl (hdropped m full nob src p cy)
  | linkFault k => exact absurd rfl (hfault k)
  | _ => rfl

/-- NOTE_DONE and PACKET_DONE are not coalesced (R177). -/
theorem coalesce_completion (e : Completion) : coalesce q e.report = none := by
  cases e <;> rfl

end

/-! ## Handing over (R175) -/

section

variable (u : ReportUnit)

theorem ReportUnit.full_eq_true_iff : u.full = true ↔ 64 ≤ u.queue.length + u.window.length := decide_eq_true_iff

theorem ReportUnit.full_eq_false_iff : u.full = false ↔ u.queue.length + u.window.length < 64 :=
  decide_eq_false_iff_not.trans Nat.not_le

/-- What handing over can make of the queue: the fold, the report appended, or the queue as it was. -/
theorem handOver_queue_cases (r : Report) :
    coalesce u.queue r = some (u.handOver r).queue
      ∨ coalesce u.queue r = none ∧ ((u.handOver r).queue = u.queue ++ [r] ∨ (u.handOver r).queue = u.queue) := by
  cases hq : coalesce u.queue r with
  | some q => exact .inl (by rw [handOver_folded u r q hq])
  | none =>
    refine .inr ⟨rfl, ?_⟩
    cases hu : u.full with
    | false => exact .inl (by rw [handOver_room u r hq hu]; rfl)
    | true => exact .inr (by rw [handOver_full u r hq hu])

end

/-! ## The bound on unsent reports of one key (R176, R177) -/

/-- No more unsent reports of a key than coalescing allows: two CONDITION reports of a station, one MAIL_WAITING and one
MAIL_DROPPED of a mailbox, one LINK_FAULT (R176, R177). -/
def Coalesced (q : List Report) : Prop :=
  (∀ a, q.countP (Report.isConditionOf a) ≤ 2) ∧ (∀ m, q.countP (Report.isMailWaitingOf m) ≤ 1)
    ∧ (∀ m, q.countP (Report.isMailDroppedOf m) ≤ 1) ∧ q.countP Report.isLinkFault ≤ 1

theorem Coalesced.nil : Coalesced [] :=
  ⟨fun _ => Nat.zero_le _, fun _ => Nat.zero_le _, fun _ => Nat.zero_le _, Nat.zero_le _⟩

/-- One more report keeps a bound on the reports of a key when it has another key or the bound is not reached. -/
theorem countP_append_singleton_le {p : Report → Bool} {q : List Report} {r : Report} {n : Nat} (hq : q.countP p ≤ n)
    (hr : p r = true → q.countP p < n) : (q ++ [r]).countP p ≤ n := by
  rw [List.countP_append, List.countP_singleton]
  split
  · next hp => exact hr hp
  · exact hq

section

variable {q : List Report} {r : Report}

/-- A fold keeps the kind and key of every report, so it keeps every count of the bound. -/
theorem Coalesced.fold {q' : List Report} (hq : Coalesced q) (h : coalesce q r = some q') : Coalesced q' := by
  obtain ⟨hcondition, hwaiting, hdropped, hfault⟩ := hq
  obtain ⟨kcondition, kwaiting, kdropped, kfault⟩ := fold_keeps_key r
  refine ⟨fun a => ?_, fun m => ?_, fun m => ?_, ?_⟩
  · rw [coalesce_countP q q' r _ (kcondition a) h]
    exact hcondition a
  · rw [coalesce_countP q q' r _ (kwaiting m) h]
    exact hwaiting m
  · rw [coalesce_countP q q' r _ (kdropped m) h]
    exact hdropped m
  · rw [coalesce_countP q q' r _ kfault h]
    exact hfault

/-- A report that finds nothing to be folded into has room for one more of its key. -/
theorem Coalesced.append (hq : Coalesced q) (h : coalesce q r = none) : Coalesced (q ++ [r]) := by
  obtain ⟨hcondition, hwaiting, hdropped, hfault⟩ := hq
  refine ⟨fun a => countP_append_singleton_le (hcondition a) fun hr => ?_,
    fun m => countP_append_singleton_le (hwaiting m) fun hr => ?_,
    fun m => countP_append_singleton_le (hdropped m) fun hr => ?_,
    countP_append_singleton_le hfault fun hr => ?_⟩
  · rw [coalesce_of_isConditionOf q hr] at h
    exact Nat.lt_succ_of_le (foldInto_eq_none_iff.mp h)
  · rw [coalesce_of_isMailWaitingOf q hr] at h
    exact Nat.lt_succ_of_le (foldInto_eq_none_iff.mp h)
  · rw [coalesce_of_isMailDroppedOf q hr] at h
    exact Nat.lt_succ_of_le (foldInto_eq_none_iff.mp h)
  · rw [coalesce_of_isLinkFault q hr] at h
    exact Nat.lt_succ_of_le (foldInto_eq_none_iff.mp h)

theorem Coalesced.merge_step (hq : Coalesced q) (r : Report) : Coalesced ((coalesce q r).getD (q ++ [r])) := by
  cases h : coalesce q r with
  | some q' => exact hq.fold h
  | none => exact hq.append h

end

theorem mergeQueue_coalesced (rs : List Report) : Coalesced (mergeQueue rs) :=
  List.foldlRecOn rs _ Coalesced.nil fun _ hq r _ => hq.merge_step r

theorem Coalesced.handOver {u : ReportUnit} (hu : Coalesced u.queue) (r : Report) : Coalesced (u.handOver r).queue := by
  obtain hfold | ⟨hnone, happend | hsame⟩ := handOver_queue_cases u r
  · exact hu.fold hfold
  · rw [happend]
    exact hu.append hnone
  · rwa [hsame]

/-- The transfer appends only reports of kinds that are never coalesced. -/
theorem Coalesced.transferSteps (now : BitVec 16) (n : Nat) {u : ReportUnit} (hu : Coalesced u.queue) :
    Coalesced (u.transferSteps now n).queue := by
  induction n generalizing u with
  | zero => exact hu
  | succ n ih =>
    unfold ReportUnit.transferSteps
    split
    · exact hu
    · split
      · exact ih (hu.append (r := .reportsLost u.lostCount u.kindsLost now) rfl)
      · split
        · exact hu
        · next e rest _ => exact ih (hu.append (coalesce_completion e))

/-- Settles O13: a clause on one kind says where its fold lands, by the count of the reports of its key before that place; the
bound is kept by each fold and by each report appended that found nothing to be folded into. -/
theorem unsentReportsCoalesce : Obligations.UnsentReportsCoalesce := by
  refine ⟨fun a acc rep sk cy q => foldInto_eq_none_iff.mpr, ?condition,
    fun q m src p len st h => foldInto_eq_none_iff.mpr h.le, fun q m src p len st => coalesce_mailWaiting m src p len st,
    fun q m full nob src p cy h => foldInto_eq_none_iff.mpr h.le, ?dropped,
    fun q k h => foldInto_eq_none_iff.mpr h.le, fun A C k₁ k hA => foldInto_of_countP_eq C hA rfl,
    fun q r => coalesce_of_other_kind, fun u r => ⟨fun q => handOver_folded u r q, ?room, ?full⟩,
    fun u r hu => Coalesced.handOver hu r, fun u now => Coalesced.transferSteps now _, mergeQueue_coalesced⟩
  case condition =>
    intro A B C a acc₁ rep₁ sk₁ cy₁ acc₂ rep₂ sk₂ cy₂ acc rep sk cy hA hB
    have hbefore : (A ++ .condition a acc₁ rep₁ sk₁ cy₁ :: B).countP (Report.isConditionOf a) = 1 := by
      simp [hA, hB]
    exact foldInto_of_countP_eq C hbefore (isConditionOf_condition a acc₂ rep₂ sk₂ cy₂)
  case dropped =>
    intro A C m full nob src p cy full₁ nob₁ src₁ p₁ cy₁ hA
    exact foldInto_of_countP_eq C hA (isMailDroppedOf_mailDropped m full₁ nob₁ src₁ p₁ cy₁)
  case room =>
    intro hnone hroom
    exact handOver_room u r hnone (u.full_eq_false_iff.mpr hroom)
  case full =>
    intro hnone hfull
    rw [handOver_full u r hnone (u.full_eq_true_iff.mpr hfull)]

end Sys2Proof.Machine
end

section
/-! SUPPORT. What a step can do, said once: the work a request's owner may do, the work an event may do, and the four ways in which a
command answers. Every invariant below is a case analysis over these. -/

namespace Sys2Proof.Machine

/-- What the owner of a request may make of the state, with the checks that have passed before it does (R164, R165). -/
inductive RequestWork (s : State) : State → Prop
  | unchanged : RequestWork s s
  | lineStart : s.line.state = .stopped ∨ s.line.state = .faulted → RequestWork s s.startLine
  | lineStop : s.line.state ≠ .stopped → RequestWork s s.stopLine
  | lineSet (x : LineSettings) : RequestWork s { s with line := { s.line with settings := x } }
  | stationEnrol (a l : Nat) : isStation a = true → (s.station a).state = .free →
      RequestWork s (s.modStation a fun _ => .enrolled l)
  | stationWithdraw (a : Nat) : isStation a = true → s.isSource a = false → RequestWork s (s.withdraw a)
  | stationBar (a : Nat) : isStation a = true → (s.station a).state.inRing = true → RequestWork s (s.bar a)
  | stationUnbar (a : Nat) : isStation a = true → (s.station a).state = .barred →
      RequestWork s (s.modStation a fun t => { t with state := .offline, missCount := 0, candidate := none })
  | stationBind (a l : Nat) : isStation a = true → s.ownsWindow a = false →
      RequestWork s (s.modStation a fun t => { t with lane := l })
  | stationRead (a : Nat) : RequestWork s (s.modStation a Station.zeroCounters)
  | noteSend (a : Nat) (octets : List Octet) : isStation a = true → s.noteLimit a = none →
      RequestWork s (s.acceptNote a octets)
  | noteCancel (h : Nat) (n : Note) : s.note? h = some n → RequestWork s (s.finishNote n .cancelled)
  | laneSet (f : LaneSetFields) (cut : Bool) : f.inRange = true → s.laneSetBusy f = false →
      s.firstRefusal (.lane f.lane) f.prec (s.newSlots f.lane f.down f.up) = none →
      RequestWork s (s.applyLaneSet f.lane f.prec cut f.down f.up)
  | circuitOpen (n : Nat) (f : CircuitOpenFields) : f.inRange = true →
      (1 ≤ f.up.length ∧ f.up.length ≤ 4 ∧ f.down.length = f.up.length) → s.freeCircuit = some n →
      s.firstRefusal (.circuit n) f.prec (claimSlots f.down f.up) = none → RequestWork s (s.openCircuit n f)
  | circuitClose (n : Nat) (c : Circuit) : s.circuit n = some c → RequestWork s (s.closeCircuit n c)
  | packetSend (f : PacketSendFields) : f.inRange = true → s.packetLimit f.lane = none →
      s.grants (blocksFor f.declared) = true → RequestWork s (s.acceptPacket f)
  | packetAdd (h l : Nat) (p : Packet) (segment : List Octet) : s.packet? h = some (l, p) →
      p.state = .filling ∨ (p.state = .sending ∧ p.body.length ≠ p.declared) →
      p.body.length + segment.length ≤ p.declared → RequestWork s (s.modPacket l p.handle fun q => q.add segment)
  | packetCancel (h l : Nat) (p : Packet) : s.packet? h = some (l, p) → p.state = .filling ∨ p.state = .ready →
      RequestWork s (s.finishPacket l p .cancelled (some .cancel))
  | packetAbort (h l : Nat) (p : Packet) : s.packet? h = some (l, p) → p.state = .sending →
      RequestWork s (s.cancelSending l p)
  | laneReset (l : Nat) : l < 4 → RequestWork s (s.resetLane l)
  | mailboxSet (m : Nat) (f : Filter) : RequestWork s (s.modMailbox m fun b => { b with filter := f })
  | mailboxTake (m : Nat) (r : MailRecord) (rest : List MailRecord) : m < 8 → (s.mailbox m).records = r :: rest →
      RequestWork s (s.takeMail m r)
  | mailboxFlush (m : Nat) : m < 8 → RequestWork s (s.flushMail m)
  | reportAck (i : Nat) : i < s.rep.window.length → RequestWork s { s with rep := s.rep.acknowledge s.now (i + 1) }
  | reportResend : RequestWork s { s with rep := { s.rep with resend := s.rep.window } }
  | hold (h : Hold) : RequestWork s { s with link := { s.link with hold := some h } }

/-- What an event of the line may make of the state: a cycle that starts or ends, what arrives and what goes out slot by slot. A row
that names a special case of another row is that row's work (log entry 7). -/
inductive LineWork (s : State) : State → Prop
  | cycleStart : s.canStart = true → LineWork s s.startCycle
  | cycleEnd (good : Bool) : s.inCycle = true → LineWork s (s.endCycle good)
  | answer (o : Octet) : s.inRunningCycle = true → LineWork s (s.judgeAnswer o)
  | bid (b : Bid) : s.inRunningCycle = true → LineWork s (s.judgeBid b)
  | windowOctet (slot : Nat) (o : Octet) (w : Window) : s.windowAt slot = some w → LineWork s (s.windowOctet w slot o)
  | circuitOctet (slot n : Nat) (o : Octet) (c : Circuit) : s.circuit n = some c →
      LineWork s (s.setCircuit n (some (c.collect slot o)))
  | drive (slot : Nat) (o : Octet) : LineWork s (s.drive slot o)
  | laneTurn (l slot : Nat) : s.downOwner slot = some (.lane l) →
      LineWork s ((s.laneTurn l slot).2.drive slot (s.laneTurn l slot).1)

/-- What an event may make of the state. -/
inductive EventWork (s : State) : State → Prop
  | powerOn : s.pin = .high → EventWork s (s.resetBlocks .powerOn 0)
  | powerOnHeld (c : RestartCause) : s.pin = .low c → EventWork s { s.resetBlocks .powerOn 0 with pin := .low .powerOn }
  | pinAssert : s.pin = .high → EventWork s
      { s with pin := .low .pin, line := s.line.release, link := { s.link with tx := .idle, finishing := none } }
  | pinRelease (c : RestartCause) : s.pin = .low c → EventWork s (s.resetBlocks c 0)
  | linkResync : s.pin = .high → s.link.rxLow = false → EventWork s
      { s with
        link := s.link.resync (Config.cutPlace s.choices), rep := s.rep.resync s.now
        choices := if s.link.txFrame.isSome then s.choices + 1 else s.choices }
  | breakEnd : s.pin = .high → s.link.rxLow = true →
      EventWork s { s with link := { s.link with rxLow := false, finishing := none } }
  | character (o : Octet) : s.pin = .high → s.link.rxLow = false → EventWork s (s.framerOctet o)
  | framingError : s.pin = .high → s.link.rxLow = false → EventWork s s.framingError
  | line (u : State) : LineWork s u → EventWork s u

/-- The four ways in which a command answers: not at all; a request is taken, worked on and answered; an event happens; a frame ends
(R164, R166; log entry 11). -/
inductive Answers (s : State) : State → Prop
  | idle : Answers s s
  | request (f : Frame) (u : State) (kind tag : Octet) (body : List Octet) : CanTake s f → RequestWork s.afterTaking u →
      Answers s (u.queueReply kind tag body).arbitrate
  | event (u : State) : EventWork s u → Answers s u.arbitrate
  | frameEnd : s.pin = .high → Answers s s.frameEnd

/-! ## Requests -/

section
variable (body : List Octet) (s : State)

theorem lineStart_work : RequestWork s (lineStart body s).1 := by
  unfold lineStart
  split
  · exact .unchanged
  · split
    next h => exact .lineStart (.inl h)
    next h => exact .lineStart (.inr h)
    all_goals exact .unchanged

theorem lineStop_work : RequestWork s (lineStop body s).1 := by
  unfold lineStop
  repeat' split
  · exact .unchanged
  · exact .unchanged
  next h => exact .lineStop h

theorem lineSet_work : RequestWork s (lineSet body s).1 := by
  unfold lineSet
  repeat' split
  iterate 3 exact .unchanged
  exact .lineSet _

theorem stats_work : RequestWork s (stats body s).1 := by
  unfold stats
  split <;> exact .unchanged

theorem stationEnrol_work : RequestWork s (stationEnrol body s).1 := by
  unfold stationEnrol
  repeat' split
  · exact .unchanged
  next h hf => exact .stationEnrol _ _ (by simp_all) hf
  all_goals exact .unchanged

theorem stationWithdraw_work : RequestWork s (stationWithdraw body s).1 := by
  unfold stationWithdraw
  repeat' split
  iterate 3 exact .unchanged
  next h hsource _ => exact .stationWithdraw _ (by simpa using h) (by simpa using hsource)
  exact .unchanged

theorem stationBar_work : RequestWork s (stationBar body s).1 := by
  unfold stationBar
  repeat' split
  iterate 3 exact .unchanged
  iterate 4 next h _ hs => exact .stationBar _ (by simpa using h) (by simp [hs, StationState.inRing])
  exact .unchanged

theorem stationUnbar_work : RequestWork s (stationUnbar body s).1 := by
  unfold stationUnbar
  repeat' split
  · exact .unchanged
  next h hs => exact .stationUnbar _ (by simpa using h) hs
  all_goals exact .unchanged

theorem stationBind_work : RequestWork s (stationBind body s).1 := by
  unfold stationBind
  repeat' split
  iterate 3 exact .unchanged
  next h _ hw => exact .stationBind _ _ (by simp_all) (by simpa using hw)
  exact .unchanged

theorem stationRead_work : RequestWork s (stationRead body s).1 := by
  unfold stationRead
  repeat' split
  iterate 2 exact .unchanged
  · exact .stationRead _
  · exact .unchanged
  · exact .unchanged

theorem noteSend_work : RequestWork s (noteSend body s).1 := by
  unfold noteSend
  repeat' split
  iterate 3 exact .unchanged
  next h _ _ hlimit => exact .noteSend _ _ (by simp_all) hlimit
  exact .unchanged

theorem noteCancel_work : RequestWork s (noteCancel body s).1 := by
  unfold noteCancel
  repeat' split
  next n h => exact .noteCancel _ n h
  all_goals exact .unchanged

theorem laneSet_work : RequestWork s (laneSet body s).1 := by
  unfold laneSet
  repeat' split
  iterate 4 exact .unchanged
  next hr hb _ href => exact .laneSet _ _ (by simpa using hr) (by simpa using hb) href

theorem parseCircuitOpen_widths {body : List Octet} {f : CircuitOpenFields} (h : parseCircuitOpen body = some f) :
    1 ≤ f.up.length ∧ f.up.length ≤ 4 ∧ f.down.length = f.up.length := by
  unfold parseCircuitOpen at h
  repeat' split at h
  next hw =>
    obtain ⟨⟨h₁, h₂⟩, hlen⟩ := hw
    cases h
    simp only [List.length_map, List.length_take, List.length_drop, Config.circuitWidth] at *
    omega
  all_goals cases h

theorem circuitOpen_work : RequestWork s (circuitOpen body s).1 := by
  unfold circuitOpen
  repeat' split
  iterate 5 exact .unchanged
  next hp hr _ n hn _ _ href => exact .circuitOpen n _ (by simpa using hr) (parseCircuitOpen_widths hp) hn href

theorem circuitClose_work : RequestWork s (circuitClose body s).1 := by
  unfold circuitClose
  repeat' split
  iterate 2 exact .unchanged
  next c h => exact .circuitClose _ c h
  exact .unchanged

theorem slotMap_work : RequestWork s (slotMap body s).1 := by
  unfold slotMap
  split <;> exact .unchanged

theorem packetSend_work : RequestWork s (packetSend body s).1 := by
  unfold packetSend
  repeat' split
  iterate 3 exact .unchanged
  next hr _ hlimit hg => exact .packetSend _ (by simpa using hr) hlimit hg
  exact .unchanged

theorem answerFinished_work (h : Nat) : RequestWork s (s.answerFinished h).1 := by
  unfold State.answerFinished
  split <;> exact .unchanged

theorem addTo_work {h l : Nat} {p : Packet} (segment : List Octet) (hp : s.packet? h = some (l, p)) :
    RequestWork s (s.addTo l p segment).1 := by
  unfold State.addTo
  repeat' split
  iterate 3 exact .unchanged
  next ha hr hb =>
    have hstate : p.state = .filling ∨ (p.state = .sending ∧ p.body.length ≠ p.declared) := by
      cases hc : p.state <;> simp_all
    exact .packetAdd h l p segment hp hstate (by simp only [not_or] at hb; omega)

theorem packetAdd_work : RequestWork s (packetAdd body s).1 := by
  unfold packetAdd
  repeat' split
  · exact .unchanged
  next hp => exact addTo_work s _ hp
  · exact answerFinished_work s _
  · exact .unchanged

theorem packetCancel_work : RequestWork s (packetCancel body s).1 := by
  unfold packetCancel
  repeat' split
  next l p hp =>
    unfold State.cancelPacket
    split
    next h => exact .packetCancel _ l p hp (.inl h)
    next h => exact .packetCancel _ l p hp (.inr h)
    next h => exact .packetAbort _ l p hp h
    next => exact .unchanged
  · exact answerFinished_work s _
  · exact .unchanged

theorem laneReset_work : RequestWork s (laneReset body s).1 := by
  unfold laneReset
  repeat' split
  · exact .unchanged
  next h => exact .laneReset _ (by simpa using h)
  · exact .unchanged

theorem laneRead_work : RequestWork s (laneRead body s).1 := by
  unfold laneRead
  repeat' split
  all_goals exact .unchanged

theorem mailboxSet_work : RequestWork s (mailboxSet body s).1 := by
  unfold mailboxSet
  split
  · exact .unchanged
  · exact .mailboxSet _ _

theorem mailboxTake_work : RequestWork s (mailboxTake body s).1 := by
  unfold mailboxTake
  repeat' split
  iterate 2 exact .unchanged
  next hm _ r rest h => exact .mailboxTake _ r rest (by simpa using hm) h
  exact .unchanged

theorem mailboxFlush_work : RequestWork s (mailboxFlush body s).1 := by
  unfold mailboxFlush
  repeat' split
  · exact .unchanged
  next h => exact .mailboxFlush _ (by simpa using h)
  · exact .unchanged

theorem reportAck_work : RequestWork s (reportAck body s).1 := by
  unfold reportAck
  repeat' split
  · exact .unchanged
  next i h => exact .reportAck i (List.findIdx?_eq_some_iff_getElem.mp h).1
  · exact .unchanged

theorem reportResend_work : RequestWork s (reportResend body s).1 := by
  unfold reportResend
  split
  · exact .unchanged
  · exact .reportResend

theorem linkSet_work : RequestWork s (linkSet body s).1 := by
  unfold linkSet
  repeat' split
  iterate 2 exact .unchanged
  · exact .hold _
  · exact .unchanged

theorem linkHello_work : RequestWork s (linkHello body s).1 := by
  unfold linkHello
  split <;> exact .unchanged

theorem deviceRestart_work : RequestWork s (deviceRestart body s).1 := by
  unfold deviceRestart
  split
  · exact .unchanged
  · exact .hold _

end

/-! ## Events -/

section
variable {s t : State}

theorem serve_answers (f : Frame) (work : State → Answered) (hw : ∀ s, RequestWork s (work s).1)
    (h : serve f work s = .next t) : Answers s t := by
  by_cases hc : CanTake s f
  · rw [serve_next s f work hc] at h
    cases h
    exact .request f _ _ _ _ hc (hw _)
  · rw [serve_skip s f work hc] at h
    cases h
    exact .idle

theorem event_answers {u : State} (hu : EventWork s u) (h : Machine.event u = .next t) : Answers s t := by
  cases h
  exact .event u hu

theorem line_answers {u : State} (hu : LineWork s u) (h : Machine.event u = .next t) : Answers s t :=
  event_answers (.line u hu) h

theorem skip_answers (h : (Host.Outcome.next s : Host.Outcome State Fault Refusal) = .next t) : Answers s t := by
  cases h
  exact .idle

theorem startCycle_of_running (h : s.line.state = .running) : s.startCycle = s.advance.runningStart := by
  simp [State.startCycle, State.reachesRunning, h]

theorem canStartRunning_iff : s.canStartRunning = true ↔ s.canStart = true ∧ s.line.state = .running := by
  simp [State.canStartRunning]

theorem inCycle_of_inRunningCycle (h : s.inRunningCycle = true) : s.inCycle = true := by
  simp only [State.inRunningCycle, State.inCycle, decide_eq_true_eq] at *
  exact ⟨h.1, h.2.1, .inr h.2.2⟩

theorem ringCalled_eq_some {a : Nat} (h : s.ringCalled = some a) :
    s.poll.call = .ring a ∧ (s.station a).state.inRing = true := by
  unfold State.ringCalled at h
  split at h
  · split at h
    next b hc hr =>
      cases h
      exact ⟨hc, hr⟩
    · cases h
  all_goals cases h

/-- A miss or a malformed answer of the cycle's ring poll is judged so, whatever row names it (log entry 7). -/
theorem judgeAnswer_of_missClass {a : Nat} {o : Octet} {malformed : Bool} (ha : s.ringCalled = some a)
    (ho : missClass o = some malformed) : s.judgeAnswer o = (s.ringMiss a malformed).countQuiet := by
  obtain ⟨hc, hr⟩ := ringCalled_eq_some ha
  have hjudge : s.judgeAnswer o = s.ringAnswer a (classifyAnswer o) := by
    unfold State.judgeAnswer
    rw [hc]
  rw [hjudge]
  unfold missClass at ho
  cases hclass : classifyAnswer o with
  | miss =>
    rw [hclass] at ho
    cases ho
    exact if_pos hr
  | malformed =>
    rw [hclass] at ho
    cases ho
    exact if_pos hr
  | valid code echo request busy =>
    rw [hclass] at ho
    cases ho

theorem judgeAnswer_of_valid {a code : Nat} {o : Octet} {echo request busy : Bool} (ha : s.ringCalled = some a)
    (ho : classifyAnswer o = .valid code echo request busy) :
    s.judgeAnswer o = (s.ringValid a code echo request busy).endQuiet := by
  obtain ⟨hc, hr⟩ := ringCalled_eq_some ha
  simp only [State.judgeAnswer, hc, State.ringAnswer, hr, if_true, ho]

theorem ringMiss_online {a : Nat} {malformed : Bool} (h : s.isOnline a = true) :
    s.ringMiss a malformed = s.missOnline a malformed := by
  simp only [State.isOnline, decide_eq_true_eq] at h
  simp only [State.ringMiss, h]

theorem ringValid_online {a code : Nat} {echo request busy : Bool} (h : s.isOnline a = true) :
    s.ringValid a code echo request busy = s.answerOnline a code echo request busy := by
  simp only [State.isOnline, decide_eq_true_eq] at h
  simp only [State.ringValid, h]

theorem isOnline_of_octetOwed {a : Nat} {toggle : Bool} (h : s.octetOwed a = some toggle) : s.isOnline a = true := by
  unfold State.octetOwed at h
  repeat' split at h
  next hc => exact (Bool.and_eq_true_iff.mp hc).1
  all_goals cases h

theorem execPowerOn_answers (h : execPowerOn s = .next t) : Answers s t := by
  unfold execPowerOn at h
  split at h
  next hp => exact event_answers (.powerOn hp) h
  next c hp => exact event_answers (.powerOnHeld c hp) h

theorem execResetPinAssert_answers (h : execResetPinAssert s = .next t) : Answers s t := by
  unfold execResetPinAssert at h
  split at h
  next hp => exact event_answers (.pinAssert hp) h
  · exact skip_answers h

theorem execResetPinRelease_answers (h : execResetPinRelease s = .next t) : Answers s t := by
  unfold execResetPinRelease at h
  split at h
  · exact skip_answers h
  next c hp => exact event_answers (.pinRelease c hp) h

theorem heldReplyOut_eq_some {x : Hold} (h : s.heldReplyOut = some x) :
    s.pin = .high ∧ s.link.tx = .reply ∧ s.link.replies.length = 1 ∧ s.link.hold = some x := by
  unfold State.heldReplyOut at h
  split at h
  next hc => exact ⟨hc.1, hc.2.1, hc.2.2, h⟩
  · cases h

/-- The end of a held request's reply is the end of a frame, whatever row names it (log entry 7). -/
theorem frameEnd_of_held {x : Hold} (h : s.heldReplyOut = some x) : s.frameEnd = (s.popReply.releaseHold x).startNext := by
  obtain ⟨-, htx, -, -⟩ := heldReplyOut_eq_some h
  simp only [State.frameEnd, htx, h]

theorem frameEnd_answers {x : Hold} (hx : s.heldReplyOut = some x)
    (h : (Host.Outcome.next (s.popReply.releaseHold x).startNext : Host.Outcome State Fault Refusal) = .next t) :
    Answers s t := by
  rw [← frameEnd_of_held hx] at h
  cases h
  exact .frameEnd (heldReplyOut_eq_some hx).1

theorem execRestartTakesEffect_answers (h : execRestartTakesEffect s = .next t) : Answers s t := by
  unfold execRestartTakesEffect at h
  split at h
  next hx => exact frameEnd_answers hx h
  all_goals exact skip_answers h

theorem execRateChange_answers (h : execRateChange s = .next t) : Answers s t := by
  unfold execRateChange at h
  split at h
  next code hx => exact frameEnd_answers hx h
  all_goals exact skip_answers h

theorem execLinkResync_answers (h : execLinkResync s = .next t) : Answers s t := by
  unfold execLinkResync at h
  split at h
  next hc => exact event_answers (.linkResync hc.1 hc.2) h
  · exact skip_answers h

theorem execBreakEnd_answers (h : execBreakEnd s = .next t) : Answers s t := by
  unfold execBreakEnd at h
  split at h
  next hc => exact event_answers (.breakEnd hc.1 hc.2) h
  · exact skip_answers h

theorem execRxCharacter_answers {o : Octet} {stop : Bool} (h : execRxCharacter o stop s = .next t) : Answers s t := by
  unfold execRxCharacter at h
  split at h
  next hc =>
    cases stop
    · exact event_answers (.framingError hc.1 hc.2) h
    · exact event_answers (.character o hc.1 hc.2) h
  · exact skip_answers h

theorem execTxFrameEnd_answers (h : execTxFrameEnd s = .next t) : Answers s t := by
  unfold execTxFrameEnd at h
  split at h
  next hp =>
    cases h
    exact .frameEnd hp
  · exact skip_answers h

theorem execCycleStart_answers (h : execCycleStart s = .next t) : Answers s t := by
  unfold execCycleStart at h
  split at h
  next hc => exact line_answers (.cycleStart hc) h
  · exact skip_answers h

theorem execRunningReached_answers (h : execRunningReached s = .next t) : Answers s t := by
  unfold execRunningReached at h
  split at h
  next hc =>
    obtain ⟨hstart, hreach⟩ := Bool.and_eq_true_iff.mp hc
    have hs : s.startCycle = s.advance.becomeRunning.runningStart := by simp [State.startCycle, hreach]
    exact line_answers (.cycleStart hstart) (hs ▸ h)
  · exact skip_answers h

/-- The rows that name the cycle start of a RUNNING line in a special case. -/
theorem runningStart_answers (hc : s.canStartRunning = true) (h : Machine.event s.advance.runningStart = .next t) :
    Answers s t := by
  obtain ⟨hstart, hrun⟩ := canStartRunning_iff.mp hc
  exact line_answers (.cycleStart hstart) (startCycle_of_running hrun ▸ h)

theorem execWindowOverrun_answers (h : execWindowOverrun s = .next t) : Answers s t := by
  unfold execWindowOverrun at h
  split at h
  next hc => exact runningStart_answers (Bool.and_eq_true_iff.mp hc).1 h
  · exact skip_answers h

theorem execGapEnd_answers {l : Nat} (h : execGapEnd l s = .next t) : Answers s t := by
  unfold execGapEnd at h
  split at h
  next hc => exact runningStart_answers (Bool.and_eq_true_iff.mp (Bool.and_eq_true_iff.mp hc).1).1 h
  · exact skip_answers h

theorem execCycleEnd_answers {marker : Bool} {readback : List (Nat × Octet)} (h : execCycleEnd marker readback s = .next t) :
    Answers s t := by
  unfold execCycleEnd at h
  split at h
  next hc => exact line_answers (.cycleEnd _ hc) h
  · exact skip_answers h

/-- The verdict that brings the mismatch count to 8 faults the line (R12). -/
theorem endCycle_faults (h : 8 ≤ s.line.mismatchCount + 1) :
    s.endCycle false =
      { s with line := { s.line with mismatchCount := s.line.mismatchCount + 1, cycleOpen := false } }.faultLine := by
  simp only [State.endCycle, Bool.false_eq_true, if_false]
  exact if_pos h

theorem execReadbackFault_answers {marker : Bool} {readback : List (Nat × Octet)}
    (h : execReadbackFault marker readback s = .next t) : Answers s t := by
  unfold execReadbackFault at h
  split at h
  next hc =>
    simp only [Bool.and_eq_true, decide_eq_true_eq] at hc
    exact line_answers (.cycleEnd false hc.1.1) (endCycle_faults hc.2 ▸ h)
  · exact skip_answers h

theorem execAnswerArrival_answers {o : Octet} (h : execAnswerArrival o s = .next t) : Answers s t := by
  unfold execAnswerArrival at h
  split at h
  next hc => exact line_answers (.answer o hc) h
  · exact skip_answers h

theorem execStationMissLimit_answers {o : Octet} (h : execStationMissLimit o s = .next t) : Answers s t := by
  unfold execStationMissLimit at h
  split at h
  next a malformed ha ho =>
    split at h
    next hc =>
      simp only [Bool.and_eq_true] at hc
      rw [← ringMiss_online hc.1.2, ← judgeAnswer_of_missClass ha ho] at h
      exact line_answers (.answer o hc.1.1) h
    · exact skip_answers h
  · exact skip_answers h

theorem execLineQuiet_answers {o : Octet} (h : execLineQuiet o s = .next t) : Answers s t := by
  unfold execLineQuiet at h
  split at h
  next a malformed ha ho =>
    split at h
    next hc =>
      rw [← judgeAnswer_of_missClass ha ho] at h
      exact line_answers (.answer o (Bool.and_eq_true_iff.mp hc).1) h
    · exact skip_answers h
  · exact skip_answers h

/-- The rows that name a special case of a valid answer of an ONLINE station. -/
theorem answerOnline_answers {a code : Nat} {o : Octet} {echo request busy toggle : Bool} (hc : s.inRunningCycle = true)
    (howed : s.octetOwed a = some toggle) (ha : s.ringCalled = some a)
    (ho : classifyAnswer o = .valid code echo request busy)
    (h : Machine.event (s.answerOnline a code echo request busy).endQuiet = .next t) : Answers s t := by
  rw [← ringValid_online (isOnline_of_octetOwed howed), ← judgeAnswer_of_valid ha ho] at h
  exact line_answers (.answer o hc) h

theorem execBusyTimeout_answers {o : Octet} (h : execBusyTimeout o s = .next t) : Answers s t := by
  unfold execBusyTimeout at h
  split at h
  next a code echo request busy ha ho =>
    split at h
    next hc =>
      simp only [Bool.and_eq_true] at hc
      obtain ⟨⟨⟨hrun, howed⟩, -⟩, -⟩ := hc
      obtain ⟨toggle, howed⟩ := Option.isSome_iff_exists.mp howed
      exact answerOnline_answers hrun howed ha ho h
    · exact skip_answers h
  · exact skip_answers h

theorem execNoAck_answers {o : Octet} (h : execNoAck o s = .next t) : Answers s t := by
  unfold execNoAck at h
  split at h
  next a code echo request busy ha ho =>
    split at h
    next hc =>
      simp only [Bool.and_eq_true, beq_iff_eq] at hc
      obtain ⟨⟨⟨hrun, howed⟩, -⟩, -⟩ := hc
      exact answerOnline_answers hrun howed ha ho h
    · exact skip_answers h
  · exact skip_answers h

theorem execBidArrival_answers {o : Octet} (h : execBidArrival o s = .next t) : Answers s t := by
  unfold execBidArrival at h
  split at h
  next hc => exact line_answers (.bid _ hc) h
  · exact skip_answers h

theorem execWindowUpOctet_answers {slot : Nat} {o : Octet} (h : execWindowUpOctet slot o s = .next t) : Answers s t := by
  unfold execWindowUpOctet at h
  split at h
  next w hw => exact line_answers (.windowOctet slot o w hw) h
  · exact skip_answers h

theorem execWindowEmpty_answers {slot : Nat} {o : Octet} (h : execWindowEmpty slot o s = .next t) : Answers s t := by
  unfold execWindowEmpty at h
  split at h
  next w hw =>
    split at h
    · exact line_answers (.windowOctet slot o w hw) h
    · exact skip_answers h
  · exact skip_answers h

theorem execCircuitUpOctet_answers {slot : Nat} {o : Octet} (h : execCircuitUpOctet slot o s = .next t) : Answers s t := by
  unfold execCircuitUpOctet at h
  repeat' split at h
  next n _ _ c hc _ => exact line_answers (.circuitOctet slot n o c hc) h
  all_goals exact skip_answers h

theorem execCircuitDownSlot_answers {slot : Nat} (h : execCircuitDownSlot slot s = .next t) : Answers s t := by
  unfold execCircuitDownSlot at h
  split at h
  · exact line_answers (.drive slot _) h
  all_goals exact skip_answers h

theorem execLaneDownSlotTurn_answers {slot : Nat} (h : execLaneDownSlotTurn slot s = .next t) : Answers s t := by
  unfold execLaneDownSlotTurn at h
  split at h
  next l hl => exact line_answers (.laneTurn l slot hl) h
  all_goals exact skip_answers h

theorem execUnknownRequest_answers {kind tag : Octet} {body : List Octet} (h : execUnknownRequest kind tag body s = .next t) :
    Answers s t := by
  unfold execUnknownRequest at h
  split at h
  · exact skip_answers h
  · exact serve_answers _ _ (fun _ => .unchanged) h

/-- What a command can make of the state (one arm of `exec` for each row of the table). -/
theorem exec_answers {c : Instr} (h : exec c s = .next t) : Answers s t := by
  cases c with
  | lineStart tag body => exact serve_answers _ _ (lineStart_work body) h
  | lineStop tag body => exact serve_answers _ _ (lineStop_work body) h
  | lineSet tag body => exact serve_answers _ _ (lineSet_work body) h
  | stats tag body => exact serve_answers _ _ (stats_work body) h
  | stationEnrol tag body => exact serve_answers _ _ (stationEnrol_work body) h
  | stationWithdraw tag body => exact serve_answers _ _ (stationWithdraw_work body) h
  | stationBar tag body => exact serve_answers _ _ (stationBar_work body) h
  | stationUnbar tag body => exact serve_answers _ _ (stationUnbar_work body) h
  | stationBind tag body => exact serve_answers _ _ (stationBind_work body) h
  | stationRead tag body => exact serve_answers _ _ (stationRead_work body) h
  | noteSend tag body => exact serve_answers _ _ (noteSend_work body) h
  | noteCancel tag body => exact serve_answers _ _ (noteCancel_work body) h
  | laneSet tag body => exact serve_answers _ _ (laneSet_work body) h
  | circuitOpen tag body => exact serve_answers _ _ (circuitOpen_work body) h
  | circuitClose tag body => exact serve_answers _ _ (circuitClose_work body) h
  | slotMap tag body => exact serve_answers _ _ (slotMap_work body) h
  | packetSend tag body => exact serve_answers _ _ (packetSend_work body) h
  | packetAdd tag body => exact serve_answers _ _ (packetAdd_work body) h
  | packetCancel tag body => exact serve_answers _ _ (packetCancel_work body) h
  | laneReset tag body => exact serve_answers _ _ (laneReset_work body) h
  | laneRead tag body => exact serve_answers _ _ (laneRead_work body) h
  | mailboxSet tag body => exact serve_answers _ _ (mailboxSet_work body) h
  | mailboxTake tag body => exact serve_answers _ _ (mailboxTake_work body) h
  | mailboxFlush tag body => exact serve_answers _ _ (mailboxFlush_work body) h
  | reportAck tag body => exact serve_answers _ _ (reportAck_work body) h
  | reportResend tag body => exact serve_answers _ _ (reportResend_work body) h
  | linkSet tag body => exact serve_answers _ _ (linkSet_work body) h
  | linkHello tag body => exact serve_answers _ _ (linkHello_work body) h
  | deviceRestart tag body => exact serve_answers _ _ (deviceRestart_work body) h
  | unknownRequest kind tag body => exact execUnknownRequest_answers h
  | powerOn => exact execPowerOn_answers h
  | resetPinAssert => exact execResetPinAssert_answers h
  | resetPinRelease => exact execResetPinRelease_answers h
  | restartTakesEffect => exact execRestartTakesEffect_answers h
  | rateChange => exact execRateChange_answers h
  | linkResync => exact execLinkResync_answers h
  | breakEnd => exact execBreakEnd_answers h
  | rxCharacter o stop => exact execRxCharacter_answers h
  | txFrameEnd => exact execTxFrameEnd_answers h
  | cycleStart => exact execCycleStart_answers h
  | cycleEnd marker readback => exact execCycleEnd_answers h
  | readbackFault marker readback => exact execReadbackFault_answers h
  | runningReached => exact execRunningReached_answers h
  | answerArrival o => exact execAnswerArrival_answers h
  | bidArrival o => exact execBidArrival_answers h
  | windowUpOctet slot o => exact execWindowUpOctet_answers h
  | circuitUpOctet slot o => exact execCircuitUpOctet_answers h
  | circuitDownSlot slot => exact execCircuitDownSlot_answers h
  | laneDownSlotTurn slot => exact execLaneDownSlotTurn_answers h
  | stationMissLimit o => exact execStationMissLimit_answers h
  | lineQuiet o => exact execLineQuiet_answers h
  | busyTimeout o => exact execBusyTimeout_answers h
  | noAck o => exact execNoAck_answers h
  | windowOverrun => exact execWindowOverrun_answers h
  | windowEmpty slot o => exact execWindowEmpty_answers h
  | gapEnd l => exact execGapEnd_answers h

end

/-! ## Steps -/

/-- An invariant that does not speak of the waiting commands is kept by every step when every command's answer keeps it. -/
theorem step_keeps (P : State → Prop) (hpending : ∀ (s : State) (q : List Instr), P s → P { s with pending := q })
    (hanswers : ∀ s t : State, P s → Answers s t → P t) {s t : State} (hs : P s) (h : step s = .next t) : P t := by
  unfold step at h
  split at h
  · cases h
    exact hs
  · exact hanswers _ t (hpending s _ hs) (exec_answers h)

/-! ## The blocks apart from the host link -/

/-- The blocks apart from the host link are the same, and no entry has joined the Completion List: what the host link, the transmitter
and the report unit's own commands keep. -/
structure BlocksKept (s t : State) : Prop where
  line : t.line = s.line
  poll : t.poll = s.poll
  notes : t.notes = s.notes
  slots : t.slots = s.slots
  circuits : t.circuits = s.circuits
  lanes : t.lanes = s.lanes
  window : t.window = s.window
  rx : t.rx = s.rx
  mailboxes : t.mailboxes = s.mailboxes
  free : t.free = s.free
  entries : t.rep.entries <:+ s.rep.entries

section
variable {s t u : State}

theorem BlocksKept.refl (s : State) : BlocksKept s s :=
  ⟨rfl, rfl, rfl, rfl, rfl, rfl, rfl, rfl, rfl, rfl, List.suffix_refl _⟩

theorem BlocksKept.trans (h : BlocksKept s t) (k : BlocksKept t u) : BlocksKept s u :=
  ⟨k.line.trans h.line, k.poll.trans h.poll, k.notes.trans h.notes, k.slots.trans h.slots, k.circuits.trans h.circuits,
    k.lanes.trans h.lanes, k.window.trans h.window, k.rx.trans h.rx, k.mailboxes.trans h.mailboxes, k.free.trans h.free,
    k.entries.trans h.entries⟩

/-- The link, the pin, the packet handles and the model's own fields may be anything, and the report unit any that has gained no
completion. -/
theorem BlocksKept.of_rep (s : State) {r : ReportUnit} (hr : r.entries <:+ s.rep.entries) (l : HostLink) (p : ResetPin)
    (c : Nat) (q : List Instr) : BlocksKept s { s with rep := r, link := l, pin := p, choices := c, pending := q } :=
  ⟨rfl, rfl, rfl, rfl, rfl, rfl, rfl, rfl, rfl, rfl, hr⟩

theorem BlocksKept.of_link (s : State) (l : HostLink) (p : ResetPin) (c : Nat) (q : List Instr) :
    BlocksKept s { s with link := l, pin := p, choices := c, pending := q } :=
  .of_rep s (List.suffix_refl _) l p c q

theorem BlocksKept.of_settles (h : Settles u t) : BlocksKept u t :=
  ⟨h.line, h.poll, h.notes, h.slots, h.circuits, h.lanes, h.window, h.rx, h.mailboxes, h.free, h.rep.entries ▸ List.suffix_refl _⟩

theorem BlocksKept.arbitrate (u : State) : BlocksKept u u.arbitrate := .of_settles u.arbitrate_settles

theorem startNext_settles (s : State) : Settles { s with link := { s.link with tx := .idle } } s.startNext := by
  unfold State.startNext
  dsimp only
  repeat' split
  · exact State.startReply_settles _ rfl
  · exact State.startReport_settles _ rfl
  · exact .refl _

theorem BlocksKept.startNext (s : State) : BlocksKept s s.startNext :=
  .trans (.of_link s _ _ _ _) (.of_settles (startNext_settles s))

/-- Handing over a report does not touch the Completion List. -/
theorem BlocksKept.report (s : State) (r : Report) : BlocksKept s (s.report r) :=
  .of_rep s ((handOver_frame s.rep r).2.2.2 ▸ List.suffix_refl _) _ _ _ _

theorem transferSteps_entries (now : BitVec 16) (n : Nat) (u : ReportUnit) : (u.transferSteps now n).entries <:+ u.entries := by
  induction n generalizing u with
  | zero => exact List.suffix_refl _
  | succ n ih =>
    unfold ReportUnit.transferSteps
    split
    · exact List.suffix_refl _
    · split
      · exact ih _
      · split
        · exact List.suffix_refl _
        next e rest he => exact (ih _).trans (he ▸ List.suffix_cons e rest)

theorem transfer_entries (now : BitVec 16) (u : ReportUnit) : (u.transfer now).entries <:+ u.entries :=
  transferSteps_entries now _ u

theorem resync_entries (now : BitVec 16) (u : ReportUnit) : (u.resync now).entries <:+ u.entries :=
  transfer_entries now _

theorem BlocksKept.linkFault (s : State) (cause : LinkFaultCause) : BlocksKept s (s.linkFault cause) :=
  .trans (.of_link s _ _ _ _) (.report _ _)

theorem BlocksKept.withFramer (s : State) (f : Framer) : BlocksKept s (s.withFramer f) := .of_link s _ _ _ _

theorem BlocksKept.offerFrame (s : State) (f : Frame) : BlocksKept s (s.offerFrame f) := by
  unfold State.offerFrame
  split
  · exact .of_link s _ _ _ _
  · exact .linkFault s _

theorem BlocksKept.frameOctet (s : State) (o : Octet) : BlocksKept s (s.frameOctet o) := by
  unfold State.frameOctet
  dsimp only
  repeat' split
  · exact .refl s
  · exact .withFramer s _
  · exact .linkFault s _
  · exact .withFramer s _
  · exact .withFramer s _
  · exact .withFramer s _
  · exact .withFramer s _
  · exact .offerFrame s _
  · exact .linkFault s _

theorem BlocksKept.framerOctet (s : State) (o : Octet) : BlocksKept s (s.framerOctet o) := by
  unfold State.framerOctet
  repeat' split
  · exact .withFramer s _
  · exact .refl s
  iterate 3
    · exact .linkFault s _
    · exact .frameOctet s _
    · exact .linkFault s _
    · exact .withFramer s _
    · exact .frameOctet s _

theorem BlocksKept.framingError (s : State) : BlocksKept s s.framingError := by
  unfold State.framingError
  split
  · exact .refl s
  all_goals exact .linkFault s _

/-- An invariant of the blocks apart from the host link holds of whatever a frame's end makes (R166, R169, R171). -/
theorem frameEnd_keeps_blocks (P : State → Prop) (hkept : ∀ s t, BlocksKept s t → P s → P t)
    (hfresh : ∀ cause rate, P (State.fresh cause rate)) (hs : P s) : P s.frameEnd := by
  have hpop : P s.popReply := hkept _ _ (.of_link s _ _ _ _) hs
  unfold State.frameEnd
  repeat' split
  · exact hs
  · exact hkept _ _ (.startNext s) hs
  next h _ =>
    refine hkept _ _ (.startNext _) ?_
    cases h with
    | linkSet code => exact hkept _ _ (.of_link _ _ _ _ _) hpop
    | restart => exact hkept _ _ (.of_link _ _ _ _ _) (hfresh .restart _)
  · exact hkept _ _ (.startNext _) hpop

/-- The induction over steps, once, for an invariant of the blocks apart from the host link: what a request's owner and an event of
the line make keeps it, it holds after every reset, and cutting off the cycle in progress keeps it. -/
theorem step_keeps_blocks (P : State → Prop) (hkept : ∀ s t, BlocksKept s t → P s → P t)
    (hfresh : ∀ cause rate, P (State.fresh cause rate)) (hrelease : ∀ s : State, P s → P { s with line := s.line.release })
    (hrequest : ∀ s u, P s → RequestWork s u → P u) (hline : ∀ s u, P s → LineWork s u → P u)
    (hs : P s) (h : step s = .next t) : P t := by
  refine step_keeps P (fun s q => hkept _ _ (.of_link s _ _ _ q)) (fun s t hs h => ?_) hs h
  have hreset : ∀ cause rate, P (s.resetBlocks cause rate) := fun cause rate =>
    hkept _ _ (.of_link _ _ _ _ _) (hfresh cause rate)
  cases h with
  | idle => exact hs
  | request f u kind tag body _ hu =>
    have hwork : P u := hrequest _ u (hkept _ _ (.of_link s _ _ _ _) hs) hu
    exact hkept _ _ ((BlocksKept.of_link u _ _ _ _).trans (.arbitrate _)) hwork
  | event u hu =>
    refine hkept _ _ (.arbitrate u) ?_
    cases hu with
    | powerOn _ => exact hreset _ _
    | powerOnHeld c _ => exact hkept _ _ (.of_link _ _ _ _ _) (hreset .powerOn 0)
    | pinAssert _ => exact hkept _ _ (.of_link _ _ _ _ _) (hrelease s hs)
    | pinRelease c _ => exact hreset _ _
    | linkResync _ _ => exact hkept _ _ (.of_rep s (resync_entries _ _) _ _ _ _) hs
    | breakEnd _ _ => exact hkept _ _ (.of_link s _ _ _ _) hs
    | character o _ _ => exact hkept _ _ (.framerOctet s o) hs
    | framingError _ _ => exact hkept _ _ (.framingError s) hs
    | line u hu => exact hline s u hs hu
  | frameEnd _ => exact frameEnd_keeps_blocks P hkept hfresh hs

end

end Sys2Proof.Machine
end

section
/-! SUPPORT. The walk over the model's operations, once: a property that the single updates keep is kept by everything a request's
owner and an event of the line do. The invariants on sizes, handles, blocks and reports are then questions about single updates. -/

namespace Sys2Proof.Machine

/-! ## What an update may leave aside -/

/-- Nothing that is counted has changed: the tables have their sizes, and the notes, the lanes, the receiver, the mailboxes, the pool
and the report unit are the same. -/
structure Aside (s t : State) : Prop where
  driven : s.line.driven.length = 48 → t.line.driven.length = 48
  stations : t.poll.stations.length = s.poll.stations.length
  down : t.slots.down.length = s.slots.down.length
  up : t.slots.up.length = s.slots.up.length
  circuits : t.circuits.length = s.circuits.length
  store : t.notes.store = s.notes.store
  lanes : t.lanes = s.lanes
  rx : t.rx = s.rx
  mailboxes : t.mailboxes = s.mailboxes
  free : t.free = s.free
  rep : t.rep = s.rep

section
variable {s : State}

theorem length_setSlot (l : List (Option α)) (slot : Nat) (x : Option α) : (setSlot l slot x).length = l.length := by
  unfold setSlot
  split <;> simp

theorem length_headerOf (call note grant : Octet) : (headerOf call note grant).length = 48 := rfl

theorem Aside.line {e : LineEngine} (he : s.line.driven.length = 48 → e.driven.length = 48) : Aside s { s with line := e } :=
  ⟨he, rfl, rfl, rfl, rfl, rfl, rfl, rfl, rfl, rfl, rfl⟩

theorem Aside.modStation (a : Nat) (f : Station → Station) : Aside s (s.modStation a f) :=
  ⟨by simp, stations_length_modStation s a f, by simp, by simp, by simp, by simp, by simp, by simp, by simp, by simp, by simp⟩

theorem Aside.calls (p q : Nat) (c : Call) :
    Aside s { s with poll := { s.poll with pollPointer := p, probePointer := q, call := c } } :=
  ⟨id, rfl, rfl, rfl, rfl, rfl, rfl, rfl, rfl, rfl, rfl⟩

theorem Aside.callOut (c : Option CallOut) : Aside s { s with notes := { s.notes with callOut := c } } :=
  ⟨id, rfl, rfl, rfl, rfl, rfl, rfl, rfl, rfl, rfl, rfl⟩

theorem Aside.window (w : WindowUnit) : Aside s { s with window := w } :=
  ⟨id, rfl, rfl, rfl, rfl, rfl, rfl, rfl, rfl, rfl, rfl⟩

theorem Aside.link (l : HostLink) : Aside s { s with link := l } :=
  ⟨id, rfl, rfl, rfl, rfl, rfl, rfl, rfl, rfl, rfl, rfl⟩

theorem Aside.reclaim (l : List ReclaimEntry) : Aside s { s with slots := { s.slots with reclaim := l } } :=
  ⟨id, rfl, rfl, rfl, rfl, rfl, rfl, rfl, rfl, rfl, rfl⟩

theorem Aside.mapSlots (f : Option MapEntry → Option MapEntry) (g : ReclaimEntry → ReclaimEntry) :
    Aside s { s with slots := { down := s.slots.down.map f, up := s.slots.up.map f, reclaim := s.slots.reclaim.map g } } :=
  ⟨id, rfl, List.length_map .., List.length_map .., rfl, rfl, rfl, rfl, rfl, rfl, rfl⟩

theorem Aside.setEntry (d : Dir) (slot : Nat) (e : Option MapEntry) : Aside s (s.setEntry d slot e) := by
  cases d
  · exact ⟨id, rfl, length_setSlot .., rfl, rfl, rfl, rfl, rfl, rfl, rfl, rfl⟩
  · exact ⟨id, rfl, rfl, length_setSlot .., rfl, rfl, rfl, rfl, rfl, rfl, rfl⟩

theorem Aside.setCircuit (n : Nat) (x : Option Circuit) : Aside s (s.setCircuit n x) :=
  ⟨id, rfl, rfl, rfl, List.length_set .., rfl, rfl, rfl, rfl, rfl, rfl⟩

theorem Aside.mapCircuits (f : Option Circuit → Option Circuit) : Aside s { s with circuits := s.circuits.map f } :=
  ⟨id, rfl, rfl, rfl, List.length_map .., rfl, rfl, rfl, rfl, rfl, rfl⟩

theorem Aside.drive (slot : Nat) (o : Octet) : Aside s (s.drive slot o) :=
  .line fun h => (List.length_set ..).trans h

end

/-! ## The receiver -/

/-- `P` is kept by whatever touches the receiver, the pool and the mailboxes, and by handing over a report. -/
structure Receiving (P : State → Prop) : Prop where
  aside : ∀ {s t : State}, Aside s t → P s → P t
  report : ∀ {s : State} (r : Report), P s → P (s.report r)
  rx : ∀ {s : State} (r : Receiver) (n : Nat), P s → P { s with rx := r, free := n }
  mailbox : ∀ {s : State} (m : Nat) (f : Mailbox → Mailbox), P s → P (s.modMailbox m f)

/-- What an octet of the window's up set does: it is passed to the receiver, and the fourth idle cycle ends the window (R97, R99). -/
theorem windowOctet_cases (s : State) (w : Window) (slot : Nat) (o : Octet) :
    ∃ w' : Window, w'.owner = w.owner ∧
      (s.windowOctet w slot o = ({ s with window := { s.window with window := some w' } } : State).receive w' o
        ∨ s.windowOctet w slot o
          = (({ s with window := { s.window with window := some w' } } : State).receive w' o).endWindow .empty) := by
  refine ⟨{ w with
    packetStarted := w.packetStarted || decide (o ≠ idleOctet)
    idleRun := if w.idleCycle slot o then w.idleRun + 1 else w.idleRun }, rfl, ?_⟩
  unfold State.windowOctet
  extract_lets w' s₁ s₂
  by_cases h : w.idleCycle slot o = true ∧ Config.emptyLimit ≤ w'.idleRun
  · exact .inr (if_pos h)
  · exact .inl (if_neg h)

section
variable {P : State → Prop} (k : Receiving P) {s : State}
include k

theorem Receiving.idleReceiver (h : P s) : P s.idleReceiver := k.rx _ s.free h

theorem Receiving.withRecord (x : ReceiverState) (r : ReceiveRecord) (h : P s) : P (s.withRecord x r) := k.rx _ s.free h

theorem Receiving.discardPacket (h : P s) : P s.discardPacket := by
  rw [discardPacket_eq]
  exact k.rx _ _ h

theorem Receiving.endWindow (e : WindowEnd) (h : P s) : P (s.endWindow e) := by
  unfold State.endWindow
  split
  · exact h
  · refine k.aside (.window _) ?_
    repeat' split
    · exact k.report _ h
    · exact h
    · exact k.discardPacket (k.report _ h)
    · exact k.discardPacket h

theorem Receiving.drain (w : Window) (port : Octet) (fault : SortFault) (box : Option (Nat × MatchKind)) (h : P s) :
    P (s.drain w port fault box) := by
  unfold State.drain
  dsimp only
  refine k.rx _ _ ?_
  split
  · exact k.report _ (k.rx _ s.free h)
  · exact k.report _ (k.rx _ s.free h)
  · exact k.report _ (k.mailbox _ _ h)
  · exact k.report _ (k.mailbox _ _ h)

theorem Receiving.decideSort (w : Window) (port station : Octet) (length : Nat) (h : P s) :
    P (s.decideSort w port station length) := by
  unfold State.decideSort
  split
  · exact k.drain _ _ _ _ h
  · split
    · exact k.drain _ _ _ _ h
    · split
      · exact k.drain _ _ _ _ h
      · exact k.rx _ _ h

theorem Receiving.judgeHeader (w : Window) (port station : Octet) (length : Nat) (h : P s) :
    P (s.judgeHeader w port station length) := by
  unfold State.judgeHeader
  repeat' split
  · exact k.endWindow _ (k.idleReceiver (k.report _ (k.rx _ s.free h)))
  · exact k.endWindow _ (k.idleReceiver (k.report _ (k.rx _ s.free h)))
  · exact k.decideSort _ _ _ _ h

theorem Receiving.storePacket (port : Octet) (source length m : Nat) (kind : MatchKind) (h : P s) :
    P (s.storePacket port source length m kind) := by
  unfold State.storePacket
  dsimp only
  refine k.endWindow _ (k.idleReceiver ?_)
  split
  · exact k.report _ (k.rx _ _ (k.mailbox m _ h))
  · exact k.rx _ _ (k.mailbox m _ h)

theorem Receiving.rejectPacket (w : Window) (received : BitVec 16) (h : P s) : P (s.rejectPacket w received) :=
  k.endWindow _ (k.idleReceiver (k.report _ (k.aside (.modStation _ _) (k.rx _ _ h))))

theorem Receiving.receive (w : Window) (o : Octet) (h : P s) : P (s.receive w o) := by
  unfold State.receive State.takeHeader
  dsimp only
  repeat' split
  · exact h
  · exact k.withRecord _ _ h
  · exact k.withRecord _ _ h
  · exact k.withRecord _ _ h
  · exact k.judgeHeader _ _ _ _ (k.withRecord _ _ h)
  · exact k.withRecord _ _ h
  · exact k.withRecord _ _ h
  · exact k.withRecord _ _ h
  · exact k.storePacket _ _ _ _ _ h
  · exact k.rejectPacket _ _ h
  · exact k.endWindow _ (k.idleReceiver h)
  · exact k.withRecord _ _ h

theorem Receiving.windowOctet (w : Window) (slot : Nat) (o : Octet) (h : P s) : P (s.windowOctet w slot o) := by
  obtain ⟨w', -, he | he⟩ := windowOctet_cases s w slot o
  · exact he ▸ k.receive _ _ (k.aside (.window _) h)
  · exact he ▸ k.endWindow _ (k.receive _ _ (k.aside (.window _) h))

end

/-! ## Every block -/

/-- What the pool and the handles know of a queue: each packet's handle and declared length. -/
def Lane.keys (x : Lane) : List (Nat × Nat) := x.queue.map fun p => (p.handle, p.declared)

/-- `P` is kept by every update that the work of a request or of an event is made of. -/
structure Working (P : State → Prop) : Prop where
  aside : ∀ {s t : State}, Aside s t → P s → P t
  report : ∀ {s : State} (r : Report), P s → P (s.report r)
  discard : ∀ {s : State}, P s → P s.discardPacket
  windowOctet : ∀ {s : State} {slot : Nat} {w : Window} (o : Octet), s.windowAt slot = some w → P s →
    P (s.windowOctet w slot o)
  modNote : ∀ {s : State} (h : Nat) (f : Note → Note), (∀ m ∈ s.notes.store, m.handle = h →
      (f m).handle = h ∧ ∃ m' ∈ s.notes.store, (f m).station = m'.station) → P s → P (s.modNote h f)
  finishNote : ∀ {s : State} (n : Note) (o : NoteOutcome), (∃ m ∈ s.notes.store, m.handle = n.handle) → P s →
    P (s.finishNote n o)
  finishNotes : ∀ {s : State} (ns : List Note) (o : NoteOutcome), (∀ n ∈ ns, n ∈ s.notes.store) →
    (s.notes.store.Nodup → ns.Nodup) → P s → P (s.finishNotes ns o)
  lanes : ∀ {s : State} (ls : List Lane), ls.map Lane.keys = s.lanes.map Lane.keys → P s → P { s with lanes := ls }
  finishPacket : ∀ {s : State} (l : Nat) (p : Packet) (o : PacketOutcome) (r : Option PacketReason),
    (p.handle, p.declared) ∈ (s.lane l).keys → P s → P (s.finishPacket l p o r)
  resetPackets : ∀ {s : State} (l : Nat), P s → P ((s.lane l).queue.foldl (State.resetPacket l) s)
  acceptNote : ∀ {s : State} (a : Nat) (octets : List Octet), isStation a = true → s.noteLimit a = none → P s →
    P (s.acceptNote a octets)
  acceptPacket : ∀ {s : State} (f : PacketSendFields), f.inRange = true → s.packetLimit f.lane = none →
    s.grants (blocksFor f.declared) = true → P s → P (s.acceptPacket f)
  mailboxSet : ∀ {s : State} (m : Nat) (f : Filter), P s → P (s.modMailbox m fun b => { b with filter := f })
  takeMail : ∀ {s : State} (m : Nat) (r : MailRecord) (rest : List MailRecord), m < 8 → (s.mailbox m).records = r :: rest →
    P s → P (s.takeMail m r)
  flushMail : ∀ {s : State} (m : Nat), m < 8 → P s → P (s.flushMail m)
  acknowledge : ∀ {s : State} (i : Nat), i < s.rep.window.length → P s → P { s with rep := s.rep.acknowledge s.now (i + 1) }
  resend : ∀ {s : State}, P s → P { s with rep := { s.rep with resend := s.rep.window } }

section
variable {s : State}

theorem modify_keys (ls : List Lane) (l : Nat) (f : Lane → Lane)
    (hf : (f ((ls[l]?).getD .fresh)).keys = ((ls[l]?).getD .fresh).keys) :
    (ls.modify l f).map Lane.keys = ls.map Lane.keys := by
  apply List.ext_getElem?
  intro i
  simp only [List.getElem?_map, List.getElem?_modify]
  by_cases hi : l = i
  · subst hi
    cases hl : ls[l]? with
    | none => simp
    | some x => simpa [hl] using hf
  · simp [hi]

theorem mem_of_note? {x : Nat} {n : Note} (hn : s.note? x = some n) : n ∈ s.notes.store ∧ n.handle = x :=
  ⟨List.mem_of_find?_eq_some hn, by simpa using List.find?_some hn⟩

theorem mem_of_calledNote {n : Note} (hn : s.calledNote = some n) : n ∈ s.notes.store := by
  unfold State.calledNote at hn
  repeat' split at hn
  next hm _ =>
    cases hn
    obtain ⟨p, -, hp⟩ := Option.bind_eq_some_iff.mp hm
    exact (mem_of_note? hp).1
  all_goals cases hn

theorem notesOf_mem (a : Nat) : ∀ n ∈ s.notesOf a, n ∈ s.notes.store := fun _ h => List.mem_of_mem_filter h

theorem notesOf_nodup (a : Nat) (h : s.notes.store.Nodup) : (s.notesOf a).Nodup := h.filter _

theorem mem_notesOf {a : Nat} {n : Note} (h : n ∈ s.notesOf a) : n.station = a := by
  simpa using (List.mem_filter.mp h).2

/-- The notes that the line-down effects finish, each once: those of different stations are different (R62). -/
theorem flatMap_notesOf_nodup (p : Note → Bool) (as : List Nat) (has : as.Nodup) (h : s.notes.store.Nodup) :
    (as.flatMap fun a => (s.notesOf a).filter p).Nodup := by
  refine List.nodup_flatMap.mpr ⟨fun a _ => (notesOf_nodup a h).filter p, has.imp fun {a b} hab => ?_⟩
  intro n ha hb
  exact hab ((mem_notesOf (List.mem_of_mem_filter ha)).symm.trans (mem_notesOf (List.mem_of_mem_filter hb)))

end

section
variable {P : State → Prop} (k : Working P) {s : State}
include k

/-! ### Notes -/

theorem Working.modStation (a : Nat) (f : Station → Station) (h : P s) : P (s.modStation a f) := k.aside (.modStation a f) h

theorem Working.drive (slot : Nat) (o : Octet) (h : P s) : P (s.drive slot o) := k.aside (.drive slot o) h

theorem Working.keepNote (x : Nat) (f : Note → Note) (hf : ∀ m, (f m).handle = m.handle ∧ (f m).station = m.station)
    (h : P s) : P (s.modNote x f) :=
  k.modNote x f (fun m hm hx => ⟨(hf m).1.trans hx, m, hm, (hf m).2⟩) h

theorem Working.loseNotes (a : Nat) (h : P s) : P (s.loseNotes a) :=
  k.finishNotes _ _ (notesOf_mem a) (notesOf_nodup a) h

theorem Working.stopNotes (h : P s) : P s.stopNotes :=
  k.finishNotes _ _
    (fun n hn => by
      obtain ⟨a, -, hn⟩ := List.mem_flatMap.mp hn
      exact notesOf_mem a n (List.mem_of_mem_filter hn))
    (flatMap_notesOf_nodup _ _ (List.nodup_range' ..)) h

theorem Working.callNote (a : Nat) (h : P s) : P (s.callNote a) := by
  unfold State.callNote
  dsimp only
  split
  · split
    · exact k.modStation _ _ (k.keepNote _ _ (fun _ => ⟨rfl, rfl⟩) (k.aside (.callOut _) h))
    · exact k.aside (.callOut _) h
  · exact k.aside (.callOut _) h

theorem Working.judgeOctet (a : Nat) (c : CallOut) (n : Note) (echo busy : Bool) (hn : n ∈ s.notes.store) (h : P s) :
    P (s.judgeOctet a c n echo busy) := by
  have hmod : ∀ (f : Station → Station) (n' : Note), n'.handle = n.handle → n'.station = n.station →
      P ((s.modStation a f).modNote n.handle fun _ => n') := fun f n' hh hs =>
    k.modNote _ _ (fun m _ _ => ⟨hh, n, by simpa using hn, hs⟩) (k.modStation a f h)
  have hin : ∀ f, ∃ m ∈ (s.modStation a f).notes.store, m.handle = n.handle := fun f => ⟨n, by simpa using hn, rfl⟩
  unfold State.judgeOctet
  dsimp only
  repeat' split
  · exact k.finishNote _ _ (hin _) (k.modStation _ _ h)
  · exact k.modStation _ _ h
  · refine k.finishNote _ _ ⟨{ n with nextIndex := n.nextIndex + 1 }, ?_, rfl⟩ (hmod _ _ rfl rfl)
    exact List.mem_map.mpr ⟨n, by simpa using hn, if_pos rfl⟩
  · exact hmod _ _ rfl rfl
  · exact k.finishNote _ _ (hin _) (k.modStation _ _ h)
  · exact k.modStation _ _ h

theorem Working.judgeNote (a : Nat) (echo busy : Bool) (h : P s) : P (s.judgeNote a echo busy) := by
  unfold State.judgeNote
  repeat' split
  · exact h
  · exact k.modStation _ _ h
  · exact k.modStation _ _ h
  next hn => exact k.judgeOctet _ _ _ _ _ (mem_of_calledNote hn) h
  · exact h
  next hn => exact k.judgeOctet _ _ _ _ _ (mem_of_calledNote hn) h
  · exact h

/-! ### Windows -/

theorem Working.endWindow (e : WindowEnd) (h : P s) : P (s.endWindow e) := by
  unfold State.endWindow
  split
  · exact h
  · refine k.aside (.window _) ?_
    repeat' split
    · exact k.report _ h
    · exact h
    · exact k.discard (k.report _ h)
    · exact k.discard h

theorem Working.askWindow (a : Nat) (h : P s) : P (s.askWindow a) := by
  unfold State.askWindow
  dsimp only
  split
  · exact k.aside (.window _) h
  · exact h

theorem Working.windowTick (h : P s) : P s.windowTick := by
  unfold State.windowTick
  repeat' split
  · exact k.endWindow _ h
  · exact k.aside (.window _) h
  · exact h

theorem Working.grant (h : P s) : P s.grant := by
  unfold State.grant
  dsimp only
  repeat' split
  · exact h
  · exact h
  · exact k.modStation _ _ (k.aside (.window _) h)

theorem Working.windowDown (h : P s) : P s.windowDown := k.aside (.window _) (k.endWindow _ h)

theorem Working.leaveWindow (a : Nat) (h : P s) : P (s.leaveWindow a) := by
  unfold State.leaveWindow
  dsimp only
  repeat' split
  · exact k.endWindow _ (k.aside (.window _) h)
  · exact k.aside (.window _) h
  · exact k.aside (.window _) h

/-! ### Lanes -/

theorem Working.modLane (l : Nat) (f : Lane → Lane) (hf : (f (s.lane l)).keys = (s.lane l).keys) (h : P s) :
    P (s.modLane l f) :=
  k.lanes _ (modify_keys s.lanes l f hf) h

theorem Working.rest (l : Nat) (e : EngineState) (h : P s) : P (s.modLane l fun x => x.rest e) := k.modLane l _ rfl h

omit k in
theorem keys_of_head {l : Nat} {p : Packet} {rest : List Packet} (hq : (s.lane l).queue = p :: rest) :
    (p.handle, p.declared) ∈ (s.lane l).keys := by
  simp [Lane.keys, hq]

theorem Working.laneSlotLost (l slot : Nat) (h : P s) : P (s.laneSlotLost l slot) := by
  unfold State.laneSlotLost
  dsimp only
  split
  next p rest hq =>
    split
    · exact k.rest _ _ (k.finishPacket _ _ _ _ (keys_of_head hq) h)
    · exact h
  · exact h

theorem Working.stopLane (l : Nat) (h : P s) : P (s.stopLane l) := by
  unfold State.stopLane
  refine k.modLane l _ rfl ?_
  split
  next p rest hq =>
    split
    · exact k.finishPacket _ _ _ _ (keys_of_head hq) h
    · exact h
  · exact h

theorem Working.stopLanes (h : P s) : P s.stopLanes :=
  List.foldlRecOn _ _ h fun _ h l _ => k.stopLane l h

omit k in
theorem atCycleStart_keys (x : Lane) (held : List Nat) : (x.atCycleStart held).keys = x.keys := by
  have hstart : ∀ x : Lane, (x.tryStart held).keys = x.keys := by
    intro x
    unfold Lane.tryStart
    split
    next p rest hq =>
      split
      · simp [Lane.keys, hq]
      · rfl
    · rfl
  unfold Lane.atCycleStart
  rw [hstart]
  split <;> rfl

theorem Working.startLanes (h : P s) : P s.startLanes := by
  refine k.lanes _ (List.ext_getElem? fun i => ?_) h
  cases hi : s.lanes[i]? <;> simp [hi, atCycleStart_keys]

theorem Working.sendOctet {l : Nat} {p q : Packet} {rest : List Packet} (o : Octet) (checked : Bool)
    (hq : (s.lane l).queue = q :: rest) (hp : p.handle = q.handle ∧ p.declared = q.declared) (h : P s) :
    P (s.sendOctet l p o checked).2 :=
  k.modLane l _ (by simp [Lane.keys, Lane.withHead, hq, hp]) h

theorem Working.endPacket {l : Nat} {p q : Packet} {rest : List Packet} (o : Octet) (outcome : PacketOutcome)
    (reason : Option PacketReason) (hq : (s.lane l).queue = q :: rest) (hp : p.handle = q.handle ∧ p.declared = q.declared)
    (h : P s) : P (s.endPacket l p o outcome reason).2 :=
  k.rest _ _ (k.finishPacket _ _ _ _ (by simp [Lane.keys, hq, hp]) h)

theorem Working.abortTurn {l : Nat} {p q : Packet} {rest : List Packet} (hq : (s.lane l).queue = q :: rest)
    (hp : p.handle = q.handle ∧ p.declared = q.declared) (h : P s) : P (s.abortTurn l p).2 := by
  unfold State.abortTurn
  dsimp only
  repeat' split
  iterate 3 exact k.sendOctet _ _ hq hp h
  exact k.endPacket _ _ _ hq hp h

omit k in
/-- A lane with another head still has a head. -/
theorem queue_withHead {l : Nat} {p q : Packet} {rest : List Packet} (e : EngineState)
    (hq : (s.lane l).queue = q :: rest) :
    ((s.modLane l fun y => { y.withHead p with engine := e }).lane l).queue = p :: rest := by
  have hl : l < s.lanes.length := by
    by_contra hl
    simp [State.lane, List.getElem?_eq_none (Nat.le_of_not_lt hl), Lane.fresh] at hq
  rw [State.lane_modLane_self s l _ hl]
  simp [Lane.withHead, hq]

theorem Working.sendTurn {l : Nat} {p : Packet} {rest : List Packet} (hq : (s.lane l).queue = p :: rest) (h : P s) :
    P (s.sendTurn l p).2 := by
  unfold State.sendTurn
  dsimp only
  repeat' split
  · exact k.sendOctet _ _ hq ⟨rfl, rfl⟩ h
  · exact k.sendOctet _ _ hq ⟨rfl, rfl⟩ h
  · exact k.abortTurn (queue_withHead _ hq) ⟨rfl, rfl⟩
      (k.modLane l _ (by simp [Lane.keys, Lane.withHead, Packet.abort, hq]) h)
  · exact k.sendOctet _ _ hq ⟨rfl, rfl⟩ h
  · exact k.endPacket _ _ _ hq ⟨rfl, rfl⟩ h

theorem Working.laneTurn (l slot : Nat) (h : P s) : P (s.laneTurn l slot).2 := by
  unfold State.laneTurn
  dsimp only
  split
  next p rest _ hq =>
    split
    · exact k.sendTurn hq h
    · exact h
  next p rest _ hq =>
    split
    · exact k.abortTurn hq ⟨rfl, rfl⟩ h
    · exact h
  · exact k.modLane l _ rfl h
  all_goals exact h

theorem Working.setPrecedence (l prec : Nat) (cut : Bool) (h : P s) : P (s.setPrecedence l prec cut) := by
  unfold State.setPrecedence
  exact k.modLane l _ rfl (k.aside (.mapSlots _ _) h)

theorem Working.resetLane (l : Nat) (h : P s) : P (s.resetLane l) := k.rest _ _ (k.resetPackets l h)

/-! ### Slots and circuits -/

theorem Working.changeCircuit (n : Nat) (c : Circuit) (new : CircuitState) (reason : CircuitReason) (lost : Option SlotRef)
    (h : P s) : P (s.changeCircuit n c new reason lost) :=
  k.report _ (k.aside (.setCircuit _ _) h)

theorem Working.circuitSlotLost (n : Nat) (c : Circuit) (r : SlotRef) (h : P s) : P (s.circuitSlotLost n c r) := by
  unfold State.circuitSlotLost
  split
  · exact h
  · exact k.changeCircuit _ _ _ _ _ h

theorem Working.circuitSlotRegained (n : Nat) (h : P s) : P (s.circuitSlotRegained n) := by
  unfold State.circuitSlotRegained
  split
  · split
    · exact k.changeCircuit _ _ _ _ _ h
    · exact h
  · exact h

theorem Working.changeCircuits (p : Circuit → Bool) (new : CircuitState) (reason : CircuitReason) (h : P s) :
    P (s.changeCircuits p new reason) := by
  refine List.foldlRecOn _ _ h fun s h n _ => ?_
  repeat' split
  · exact k.changeCircuit _ _ _ _ _ h
  · exact h
  · exact h

theorem Working.sourceOnline (a : Nat) (h : P s) : P (s.sourceOnline a) := k.changeCircuits _ _ _ h

theorem Working.sourceLeft (a : Nat) (h : P s) : P (s.sourceLeft a) := k.changeCircuits _ _ _ h

theorem Working.muteSourceless (h : P s) : P s.muteSourceless := k.changeCircuits _ _ _ h

theorem Working.tellRegained (e : ReclaimEntry) (o : Owner) (h : P s) : P (s.tellRegained e o) := by
  unfold State.tellRegained
  split
  · exact k.report _ h
  · exact k.circuitSlotRegained _ h

theorem Working.freeSlot (o : Owner) (r : SlotRef) (h : P s) : P (s.freeSlot o r) := by
  unfold State.freeSlot
  split
  · exact k.aside (.setEntry _ _ _) h
  · exact k.tellRegained _ _ (k.aside (.reclaim _) (k.aside (.setEntry _ _ _) h))

theorem Working.freeSlots (o : Owner) (rs : List SlotRef) (h : P s) : P (s.freeSlots o rs) := by
  refine List.foldlRecOn _ _ h fun s h r _ => ?_
  split
  · exact k.freeSlot _ _ h
  · exact h

theorem Working.dropReclaim (p : ReclaimEntry → Bool) (h : P s) : P (s.dropReclaim p) := k.aside (.reclaim _) h

theorem Working.removeCircuit (n : Nat) (c : Circuit) (h : P s) : P (s.removeCircuit n c) :=
  k.aside (.setCircuit _ _) (k.freeSlots _ _ h)

theorem Working.closeCircuit (n : Nat) (c : Circuit) (h : P s) : P (s.closeCircuit n c) :=
  k.removeCircuit n c (k.dropReclaim _ h)

theorem Working.closeNoReclaim (n : Nat) (c : Circuit) (r : SlotRef) (h : P s) : P (s.closeNoReclaim n c r) :=
  k.removeCircuit n c (k.report _ (k.dropReclaim _ h))

theorem Working.tellLane (l : Nat) (r : SlotRef) (h : P s) : P (s.tellLane l r) := by
  unfold State.tellLane
  repeat' split
  · exact k.laneSlotLost _ _ h
  · exact k.endWindow _ h
  · exact h
  · exact h

theorem Working.addReclaim (x : Loss) (h : P s) : P (s.addReclaim x) := k.aside (.reclaim _) h

theorem Working.takeLoss (o : Owner) (prec : Nat) (x : Loss) (h : P s) : P (State.takeLoss o prec s x) := by
  unfold State.takeLoss
  dsimp only
  repeat' split
  · exact k.tellLane _ _ (k.report _ (k.addReclaim x h))
  · exact k.tellLane _ _ (k.report _ h)
  · exact h
  · exact k.circuitSlotLost _ _ _ (k.addReclaim x h)
  · exact k.closeNoReclaim _ _ _ h

theorem Working.applyClaim (o : Owner) (prec : Nat) (rs : List SlotRef) (h : P s) : P (s.applyClaim o prec rs) :=
  List.foldlRecOn _ _ (List.foldlRecOn rs _ h fun _ h _ _ => k.aside (.setEntry _ _ _) h) fun _ h x _ => k.takeLoss o prec x h

theorem Working.applyLaneSet (l prec : Nat) (cut : Bool) (down up : List Nat) (h : P s) :
    P (s.applyLaneSet l prec cut down up) :=
  k.freeSlots _ _ (k.applyClaim _ _ _ (k.dropReclaim _ (k.setPrecedence l prec cut h)))

theorem Working.openCircuit (n : Nat) (f : CircuitOpenFields) (h : P s) : P (s.openCircuit n f) :=
  k.applyClaim _ _ _ (k.aside (.setCircuit _ _) h)

/-! ### Stations -/

theorem Working.leaveOnline (a : Nat) (new : StationState) (reason : StationReason) (h : P s) :
    P (s.leaveOnline a new reason) :=
  k.sourceLeft a (k.loseNotes a (k.leaveWindow a (k.report _ h)))

theorem Working.doubleLook (a code : Nat) (h : P s) : P (s.doubleLook a code) := by
  unfold State.doubleLook
  dsimp only
  repeat' split
  · exact h
  · exact k.report _ (k.modStation _ _ h)
  · exact k.modStation _ _ h

theorem Working.becomeOnline (a code : Nat) (request : Bool) (h : P s) : P (s.becomeOnline a code request) := by
  unfold State.becomeOnline
  dsimp only
  split
  · exact k.askWindow a (k.doubleLook _ _ (k.sourceOnline a (k.report _ (k.modStation _ _ h))))
  · exact k.doubleLook _ _ (k.sourceOnline a (k.report _ (k.modStation _ _ h)))

theorem Working.answerOnline (a code : Nat) (echo request busy : Bool) (h : P s) :
    P (s.answerOnline a code echo request busy) := by
  unfold State.answerOnline
  dsimp only
  split
  · exact k.askWindow a (k.judgeNote _ _ _ (k.doubleLook _ _ (k.modStation _ _ h)))
  · exact k.judgeNote _ _ _ (k.doubleLook _ _ (k.modStation _ _ h))

theorem Working.missOnline (a : Nat) (malformed : Bool) (h : P s) : P (s.missOnline a malformed) := by
  unfold State.missOnline
  dsimp only
  split
  · exact k.leaveOnline _ _ _ (k.modStation _ _ (k.modStation _ _ h))
  · exact k.modStation _ _ h

theorem Working.ringMiss (a : Nat) (malformed : Bool) (h : P s) : P (s.ringMiss a malformed) := by
  unfold State.ringMiss
  split
  · exact k.missOnline _ _ h
  iterate 3 exact k.modStation _ _ h
  all_goals exact h

theorem Working.ringValid (a code : Nat) (echo request busy : Bool) (h : P s) :
    P (s.ringValid a code echo request busy) := by
  unfold State.ringValid
  split
  iterate 2 exact k.modStation _ _ h
  · exact k.becomeOnline _ _ _ h
  · exact k.answerOnline _ _ _ _ _ h
  all_goals exact h

theorem Working.countQuiet (h : P s) : P s.countQuiet := by
  unfold State.countQuiet
  dsimp only
  split
  · exact k.report _ (k.aside (.line id) h)
  · exact k.aside (.line id) h

theorem Working.endQuiet (h : P s) : P s.endQuiet := k.aside (.line id) h

theorem Working.ringAnswer (a : Nat) (x : Answer) (h : P s) : P (s.ringAnswer a x) := by
  unfold State.ringAnswer
  repeat' split
  · exact k.countQuiet (k.ringMiss _ _ h)
  · exact k.countQuiet (k.ringMiss _ _ h)
  · exact k.endQuiet (k.ringValid _ _ _ _ _ h)
  · exact h

theorem Working.probeAnswer (a : Nat) (x : Answer) (h : P s) : P (s.probeAnswer a x) := by
  unfold State.probeAnswer
  repeat' split
  · exact k.modStation _ _ h
  · exact k.modStation _ _ h
  · exact k.endQuiet h
  · exact k.endQuiet (k.report _ (k.modStation _ _ h))
  · exact h

theorem Working.judgeAnswer (o : Octet) (h : P s) : P (s.judgeAnswer o) := by
  unfold State.judgeAnswer
  split
  · exact h
  · exact k.ringAnswer _ _ h
  · exact k.probeAnswer _ _ h

theorem Working.judgeBid (b : Bid) (h : P s) : P (s.judgeBid b) := by
  unfold State.judgeBid
  split
  · exact h
  · exact k.aside (.window _) h
  · split
    · exact k.askWindow _ h
    · exact k.aside (.window _) h

theorem Working.departs (a : Nat) (on : Bool) (new : StationState) (reason : StationReason) (h : P s) :
    P (s.departs a on new reason) := by
  unfold State.departs
  split
  · exact k.leaveOnline _ _ _ h
  · exact k.loseNotes _ h

theorem Working.withdraw (a : Nat) (h : P s) : P (s.withdraw a) :=
  k.modStation _ _ (k.departs _ _ _ _ (k.modStation _ _ h))

theorem Working.bar (a : Nat) (h : P s) : P (s.bar a) := k.departs _ _ _ _ (k.modStation _ _ h)

/-! ### The line -/

theorem Working.release (h : P s) : P { s with line := s.line.release } :=
  k.aside (.line fun _ => List.length_replicate ..) h

theorem Working.stationDown (a : Nat) (h : P s) : P (s.stationDown a) := by
  unfold State.stationDown
  dsimp only
  repeat' split
  · exact k.report _ (k.modStation _ _ h)
  · exact k.modStation _ _ h
  · exact h

theorem Working.stationsDown (h : P s) : P s.stationsDown := List.foldlRecOn _ _ h fun _ h a _ => k.stationDown a h

theorem Working.silenceCircuits (h : P s) : P s.silenceCircuits := k.aside (.mapCircuits _) h

theorem Working.lineDown (h : P s) : P s.lineDown :=
  k.silenceCircuits (k.stopLanes (k.windowDown (k.stopNotes (k.stationsDown h))))

theorem Working.startLine (h : P s) : P s.startLine := k.report _ (k.aside (.line fun _ => length_headerOf _ _ _) h)

theorem Working.stopLine (h : P s) : P s.stopLine := by
  unfold State.stopLine
  dsimp only
  split
  · exact k.lineDown (k.aside (.line fun _ => List.length_replicate ..) (k.report _ h))
  · exact k.aside (.line fun _ => List.length_replicate ..) (k.report _ h)

theorem Working.faultLine (h : P s) : P s.faultLine := by
  unfold State.faultLine
  dsimp only
  split
  · exact k.lineDown (k.aside (.line fun _ => List.length_replicate ..) (k.report _ h))
  · exact k.aside (.line fun _ => List.length_replicate ..) (k.report _ h)

theorem Working.chooseCall (h : P s) : P s.chooseCall := by
  unfold State.chooseCall
  dsimp only
  repeat' split
  all_goals exact k.aside (.calls _ _ _) h

theorem Working.makeCall (h : P s) : P s.makeCall := by
  unfold State.makeCall
  dsimp only
  repeat' split
  · exact k.callNote _ h
  all_goals exact k.aside (.callOut _) h

theorem Working.shiftCircuits (h : P s) : P s.shiftCircuits := k.aside (.mapCircuits _) h

theorem Working.runningStart (h : P s) : P s.runningStart :=
  k.aside (.line fun _ => length_headerOf _ _ _)
    (k.startLanes (k.shiftCircuits (k.grant (k.makeCall (k.chooseCall (k.windowTick h))))))

theorem Working.advance (h : P s) : P s.advance := k.aside (.line id) h

theorem Working.becomeRunning (h : P s) : P s.becomeRunning := k.muteSourceless (k.aside (.line id) (k.report _ h))

theorem Working.startCycle (h : P s) : P s.startCycle := by
  unfold State.startCycle
  repeat' split
  · exact k.runningStart (k.becomeRunning (k.advance h))
  · exact k.runningStart (k.advance h)
  · exact k.aside (.line fun _ => length_headerOf _ _ _) (k.advance h)

omit k in
theorem countStart_driven (e : LineEngine) : e.countStart.driven = e.driven := by
  unfold LineEngine.countStart
  split <;> rfl

theorem Working.endCycle (good : Bool) (h : P s) : P (s.endCycle good) := by
  unfold State.endCycle
  dsimp only
  repeat' split
  · exact k.aside (.line fun hd => by simpa [countStart_driven] using hd) h
  · exact k.faultLine (k.aside (.line id) h)
  · exact k.aside (.line fun hd => by simpa [countStart_driven] using hd) (k.aside (.line id) h)

/-! ### Requests and events -/

omit k in
theorem findPacket_mem {x n l : Nat} {p : Packet} {ls : List Lane} (h : findPacket x n ls = some (l, p)) :
    n ≤ l ∧ ∃ y, ls[l - n]? = some y ∧ p ∈ y.queue ∧ p.handle = x := by
  induction ls generalizing n with
  | nil => cases h
  | cons y ls ih =>
    unfold findPacket at h
    split at h
    next q hq =>
      cases h
      exact ⟨Nat.le_refl _, y, by simp, List.mem_of_find?_eq_some hq, by simpa using List.find?_some hq⟩
    · obtain ⟨hle, z, hz, hmem⟩ := ih h
      refine ⟨by omega, z, ?_, hmem⟩
      rw [show l - n = l - (n + 1) + 1 by omega]
      exact hz

omit k in
theorem mem_of_packet? {x l : Nat} {p : Packet} (h : s.packet? x = some (l, p)) :
    l < s.lanes.length ∧ p ∈ (s.lane l).queue ∧ p.handle = x := by
  obtain ⟨-, y, hy, hmem, hx⟩ := findPacket_mem h
  rw [Nat.sub_zero] at hy
  refine ⟨(List.getElem?_eq_some_iff.mp hy).1, ?_, hx⟩
  simpa [State.lane, hy] using hmem

omit k in
theorem keys_of_packet? {x l : Nat} {p : Packet} (h : s.packet? x = some (l, p)) :
    (p.handle, p.declared) ∈ (s.lane l).keys :=
  List.mem_map.mpr ⟨p, (mem_of_packet? h).2.1, rfl⟩

omit k in
theorem keys_map (x : Lane) (f : Packet → Packet) (hf : ∀ p, (f p).handle = p.handle ∧ (f p).declared = p.declared) :
    ({ x with queue := x.queue.map f } : Lane).keys = x.keys := by
  simp [Lane.keys, hf, Function.comp_def]

theorem Working.modPacket (l x : Nat) (f : Packet → Packet)
    (hf : ∀ p, (f p).handle = p.handle ∧ (f p).declared = p.declared) (h : P s) : P (s.modPacket l x f) := by
  refine k.modLane l _ (keys_map _ _ fun p => ?_) h
  split
  · exact hf p
  · exact ⟨rfl, rfl⟩

theorem Working.of_requestWork {t : State} (h : P s) (hw : RequestWork s t) : P t := by
  cases hw with
  | unchanged => exact h
  | lineStart _ => exact k.startLine h
  | lineStop _ => exact k.stopLine h
  | lineSet x => exact k.aside (.line id) h
  | stationEnrol a l _ _ => exact k.modStation _ _ h
  | stationWithdraw a _ _ => exact k.withdraw a h
  | stationBar a _ _ => exact k.bar a h
  | stationUnbar a _ _ => exact k.modStation _ _ h
  | stationBind a l _ _ => exact k.modStation _ _ h
  | stationRead a => exact k.modStation _ _ h
  | noteSend a octets ha hl => exact k.acceptNote a octets ha hl h
  | noteCancel x n hn => exact k.finishNote n _ ⟨n, (mem_of_note? hn).1, rfl⟩ h
  | laneSet f cut _ _ _ => exact k.applyLaneSet _ _ _ _ _ h
  | circuitOpen n f _ _ _ _ => exact k.openCircuit n f h
  | circuitClose n c _ => exact k.closeCircuit n c h
  | packetSend f hr hl hg => exact k.acceptPacket f hr hl hg h
  | packetAdd x l p segment _ _ _ => exact k.modPacket _ _ _ (fun _ => ⟨rfl, rfl⟩) h
  | packetCancel x l p hp _ => exact k.finishPacket _ _ _ _ (keys_of_packet? hp) h
  | packetAbort x l p _ _ => exact k.modLane _ _ rfl (k.modPacket _ _ _ (fun _ => ⟨rfl, rfl⟩) h)
  | laneReset l _ => exact k.resetLane l h
  | mailboxSet m f => exact k.mailboxSet m f h
  | mailboxTake m r rest hm hr => exact k.takeMail m r rest hm hr h
  | mailboxFlush m hm => exact k.flushMail m hm h
  | reportAck i hi => exact k.acknowledge i hi h
  | reportResend => exact k.resend h
  | hold x => exact k.aside (.link _) h

theorem Working.of_lineWork {t : State} (h : P s) (hw : LineWork s t) : P t := by
  cases hw with
  | cycleStart _ => exact k.startCycle h
  | cycleEnd good _ => exact k.endCycle good h
  | answer o _ => exact k.judgeAnswer o h
  | bid b _ => exact k.judgeBid b h
  | windowOctet slot o w hw => exact k.windowOctet o hw h
  | circuitOctet slot n o c _ => exact k.aside (.setCircuit _ _) h
  | drive slot o => exact k.drive slot o h
  | laneTurn l slot _ => exact k.drive _ _ (k.laneTurn l slot h)

end
end Sys2Proof.Machine
end

section
/-! SUPPORT. Every table keeps its size: what the single updates do to the tables, and O52. -/

namespace Sys2Proof.Machine

variable {s t : State}

/-- The sizes are the same where the tables are the same. -/
theorem Shape.of_tables (h : Shape s) (line : t.line = s.line) (poll : t.poll = s.poll) (slots : t.slots = s.slots)
    (circuits : t.circuits = s.circuits) (lanes : t.lanes.length = s.lanes.length)
    (mailboxes : t.mailboxes.length = s.mailboxes.length) : Shape t :=
  ⟨poll ▸ h.stations, slots ▸ h.down, slots ▸ h.up, circuits ▸ h.circuits, lanes ▸ h.lanes, mailboxes ▸ h.mailboxes,
    line ▸ h.driven⟩

theorem Shape.of_aside (h : Shape s) (a : Aside s t) : Shape t :=
  ⟨a.stations.trans h.stations, a.down.trans h.down, a.up.trans h.up, a.circuits.trans h.circuits, a.lanes ▸ h.lanes,
    a.mailboxes ▸ h.mailboxes, a.driven h.driven⟩

theorem Shape.of_blocksKept (h : Shape s) (k : BlocksKept s t) : Shape t :=
  h.of_tables k.line k.poll k.slots k.circuits (congrArg _ k.lanes) (congrArg _ k.mailboxes)

theorem Shape.modMailbox (h : Shape s) (m : Nat) (f : Mailbox → Mailbox) : Shape (s.modMailbox m f) :=
  h.of_tables rfl rfl rfl rfl rfl (List.length_modify ..)

theorem Shape.withNotes (h : Shape s) (n : NoteUnit) : Shape { s with notes := n } := h.of_tables rfl rfl rfl rfl rfl rfl

theorem Shape.withRep (h : Shape s) (r : ReportUnit) : Shape { s with rep := r } := h.of_tables rfl rfl rfl rfl rfl rfl

theorem Shape.withLanes (h : Shape s) (ls : List Lane) (n k : Nat) (hl : ls.length = s.lanes.length) :
    Shape { s with lanes := ls, free := n, lastPacketHandle := k } :=
  h.of_tables rfl rfl rfl rfl hl rfl

theorem Shape.finishNote (h : Shape s) (n : Note) (o : NoteOutcome) : Shape (s.finishNote n o) := by
  unfold State.finishNote
  dsimp only
  refine Shape.withRep (Shape.withNotes ?_ _) _
  split
  · exact h.modStation _ _
  · exact h

theorem Shape.finishPacket (h : Shape s) (l : Nat) (p : Packet) (o : PacketOutcome) (r : Option PacketReason) :
    Shape (s.finishPacket l p o r) :=
  Shape.withRep (h.withLanes _ _ s.lastPacketHandle (List.length_modify ..)) _

theorem Shape.receiving : Receiving Shape where
  aside := fun a h => h.of_aside a
  report := fun _ h => h.withRep _
  rx := fun _ _ h => h.of_tables rfl rfl rfl rfl rfl rfl
  mailbox := fun m f h => h.modMailbox m f

theorem Shape.working : Working Shape where
  aside := fun a h => h.of_aside a
  report := fun _ h => h.withRep _
  discard := receiving.discardPacket
  windowOctet := fun o _ h => receiving.windowOctet _ _ o h
  modNote := fun _ _ _ h => h.withNotes _
  finishNote := fun n o _ h => h.finishNote n o
  finishNotes := fun ns o _ _ h => List.foldlRecOn ns _ h fun _ h n _ => h.finishNote n o
  lanes := fun ls hk h => h.withLanes ls _ _ (by simpa using congrArg List.length hk)
  finishPacket := fun l p o r _ h => h.finishPacket l p o r
  resetPackets := fun l h => List.foldlRecOn _ _ h fun _ h p _ => h.finishPacket l p _ _
  acceptNote := fun _ _ _ _ h => h.withNotes _
  acceptPacket := fun _ _ _ _ h => h.withLanes _ _ _ (List.length_modify ..)
  mailboxSet := fun m _ h => h.modMailbox m _
  takeMail := fun m _ _ _ _ h => h.of_tables rfl rfl rfl rfl rfl (List.length_modify ..)
  flushMail := fun m _ h => h.of_tables rfl rfl rfl rfl rfl (List.length_modify ..)
  acknowledge := fun _ _ h => h.withRep _
  resend := fun h => h.withRep _

theorem Shape.fresh (cause : RestartCause) (rate : Nat) : Shape (State.fresh cause rate) := by
  constructor <;> rfl

/-- Settles O52: each request's work and each event of the line changes the tables' entries, never their number. -/
theorem stepKeepsShape : Obligations.StepKeepsShape := fun _ _ hs hstep =>
  step_keeps_blocks Shape (fun _ _ k h => h.of_blocksKept k) Shape.fresh (fun _ h => Shape.working.release h)
    (fun _ _ h hw => Shape.working.of_requestWork h hw) (fun _ _ h hw => Shape.working.of_lineWork h hw) hs hstep

end Sys2Proof.Machine
end

section
/-! SUPPORT. The report unit between events: what handing over, the transfer, a report that starts, an acknowledgement and a resync
keep (R175, R180 to R186), and O55. -/

namespace Sys2Proof.Machine

/-- `ReportsSound` as a property of the report unit. -/
structure ReportUnit.Sound (u : ReportUnit) : Prop where
  total : u.queue.length + u.window.length ≤ 64
  window : u.window.length ≤ 8
  numbers : ∀ (i : Nat) (r : SentReport), u.window[i]? = some r →
    r.seq + BitVec.ofNat 8 (u.window.length - i) = u.nextSeq
  resend : u.resend <:+ u.window
  settled : u.queue.length + u.window.length = 64 ∨ (u.lostCount = 0 ∧ u.entries = [])

/-- What has gone out is numbered, bounded, and what is to be resent is its end: the part that no handing over touches. -/
structure ReportUnit.SentSound (u : ReportUnit) : Prop where
  window : u.window.length ≤ 8
  numbers : ∀ (i : Nat) (r : SentReport), u.window[i]? = some r →
    r.seq + BitVec.ofNat 8 (u.window.length - i) = u.nextSeq
  resend : u.resend <:+ u.window

theorem reportsSound_iff (s : State) : ReportsSound s ↔ s.rep.Sound :=
  ⟨fun h => ⟨h.total, h.window, h.numbers, h.resend, h.settled⟩, fun h => ⟨h.total, h.window, h.numbers, h.resend, h.settled⟩⟩

section
variable {u : ReportUnit}

theorem ReportUnit.Sound.sent (h : u.Sound) : u.SentSound := ⟨h.window, h.numbers, h.resend⟩

theorem ReportUnit.SentSound.of_eq (h : u.SentSound) {v : ReportUnit}
    (hv : v.window = u.window ∧ v.nextSeq = u.nextSeq ∧ v.resend = u.resend) : v.SentSound := by
  obtain ⟨hw, hn, hr⟩ := hv
  exact ⟨hw ▸ h.window, by rw [hw, hn]; exact h.numbers, by rw [hw, hr]; exact h.resend⟩

theorem ReportUnit.Sound.of_sent (h : u.SentSound) (total : u.queue.length + u.window.length ≤ 64)
    (settled : u.queue.length + u.window.length = 64 ∨ (u.lostCount = 0 ∧ u.entries = [])) : u.Sound :=
  ⟨total, h.window, h.numbers, h.resend, settled⟩

theorem full_iff (u : ReportUnit) : u.full = true ↔ 64 ≤ u.queue.length + u.window.length := decide_eq_true_iff

/-! ## Handing over and the transfer -/

theorem ReportUnit.Sound.handOver (h : u.Sound) (r : Report) : (u.handOver r).Sound := by
  have hsent := h.sent.of_eq (u.handOver_sent r)
  cases hc : coalesce u.queue r with
  | some q =>
    rw [handOver_folded u r q hc] at hsent ⊢
    have hlen := coalesce_length _ _ _ hc
    exact .of_sent hsent (by simpa only [hlen] using h.total) (by simpa only [hlen] using h.settled)
  | none =>
    by_cases hfull : u.full = true
    · rw [handOver_full u r hc hfull] at hsent ⊢
      exact .of_sent hsent h.total (.inl (Nat.le_antisymm h.total ((full_iff u).mp hfull)))
    · rw [handOver_room u r hc (by simpa using hfull)] at hsent ⊢
      have hroom : u.queue.length + u.window.length < 64 := Nat.lt_of_not_le (mt (full_iff u).mpr hfull)
      refine .of_sent hsent ?_ ?_
      · simp only [ReportUnit.append, List.length_append, List.length_singleton]
        omega
      · exact .inr (h.settled.resolve_left (Nat.ne_of_lt hroom))

/-- A transfer of enough steps leaves the queue full, or nothing to move (R180). -/
theorem transferSteps_sound (now : BitVec 16) (n : Nat) (u : ReportUnit) (h : u.SentSound)
    (htotal : u.queue.length + u.window.length ≤ 64) (hn : u.entries.length + (if 0 < u.lostCount then 1 else 0) ≤ n) :
    (u.transferSteps now n).Sound := by
  induction n generalizing u with
  | zero =>
    have hlost : u.lostCount = 0 := by
      by_contra hne
      rw [if_pos (Nat.pos_of_ne_zero hne)] at hn
      omega
    have hentries : u.entries = [] := List.eq_nil_of_length_eq_zero (by omega)
    exact .of_sent h htotal (.inr ⟨hlost, hentries⟩)
  | succ n ih =>
    unfold ReportUnit.transferSteps
    by_cases hfull : u.full = true
    · rw [if_pos hfull]
      exact .of_sent h htotal (.inl (Nat.le_antisymm htotal ((full_iff u).mp hfull)))
    · have hroom : u.queue.length + u.window.length < 64 := Nat.lt_of_not_le (mt (full_iff u).mpr hfull)
      have happend : ∀ r : Report, (u.queue ++ [r]).length + u.window.length ≤ 64 := fun r => by
        rw [List.length_append, List.length_singleton]
        omega
      rw [if_neg hfull]
      by_cases hlost : 0 < u.lostCount
      · rw [if_pos hlost] at hn ⊢
        exact ih _ (h.of_eq ⟨rfl, rfl, rfl⟩) (happend _) (by simp only [ReportUnit.append, Nat.lt_irrefl, if_false]; omega)
      · rw [if_neg hlost] at hn ⊢
        split
        next he => exact .of_sent h htotal (.inr ⟨by omega, he⟩)
        next e rest he =>
          rw [he, List.length_cons] at hn
          exact ih _ (h.of_eq ⟨rfl, rfl, rfl⟩) (happend _) (by simp only [ReportUnit.append, hlost, if_false]; omega)

theorem transfer_sound (now : BitVec 16) (h : u.SentSound) (htotal : u.queue.length + u.window.length ≤ 64) :
    (u.transfer now).Sound :=
  transferSteps_sound now _ u h htotal (by split <;> omega)

theorem ReportUnit.Sound.placed (h : u.Sound) (now : BitVec 16) (e : Completion) : (u.placed now e).Sound :=
  transfer_sound now (h.sent.of_eq ⟨rfl, rfl, rfl⟩) h.total

/-! ## What goes out, and what comes back -/

/-- A report that is available starts: from the resend list, else from the queue into the window (R181, R184). -/
theorem ReportUnit.Sound.startReport {s : State} (h : s.rep.Sound) (ha : s.rep.available = true) : s.startReport.rep.Sound := by
  unfold State.startReport
  split
  next x rest hx =>
    exact .of_sent ⟨h.window, h.numbers, (List.suffix_cons x rest).trans (hx ▸ h.resend)⟩ h.total h.settled
  next r q hr hq =>
    have hroom : s.rep.window.length < 8 := by
      simpa [ReportUnit.available, hr, hq, Config.reportWindow] using ha
    have htotal := h.total
    have hsettled := h.settled
    rw [hq, List.length_cons] at htotal hsettled
    refine .of_sent ⟨?_, ?_, ?_⟩ ?_ ?_
    · simpa using hroom
    · intro i x hx
      dsimp only at hx ⊢
      rw [List.length_append, List.length_singleton]
      obtain hi | ⟨hi, rfl⟩ : s.rep.window[i]? = some x ∨ (i = s.rep.window.length ∧ x = ⟨s.rep.nextSeq, r⟩) := by
        rw [List.getElem?_append] at hx
        split at hx
        · exact .inl hx
        next hlen =>
          obtain ⟨h0, hx⟩ := List.getElem?_eq_some_iff.mp hx
          rw [List.length_singleton] at h0
          exact .inr ⟨by omega, by simpa using hx.symm⟩
      · have hlt : i < s.rep.window.length := (List.getElem?_eq_some_iff.mp hi).1
        rw [show s.rep.window.length + 1 - i = s.rep.window.length - i + 1 by omega, BitVec.ofNat_add, ← BitVec.add_assoc,
          h.numbers i x hi]
        rfl
      · rw [hi, Nat.add_sub_cancel_left]
        rfl
    · exact hr ▸ List.nil_suffix
    · simp only [List.length_append, List.length_singleton]
      omega
    · simp only [List.length_append, List.length_singleton]
      exact hsettled.imp (fun he => by omega) id
  · exact h

/-- The numbers in the window are different: at most 8 of 256 (R182). -/
theorem ReportUnit.SentSound.seq_nodup (h : u.SentSound) : (u.window.map (·.seq)).Nodup := by
  rw [List.nodup_iff_pairwise_ne, List.pairwise_iff_getElem]
  intro i j hi hj hij heq
  simp only [List.length_map] at hi hj
  have hwi := h.numbers i _ (List.getElem?_eq_getElem hi)
  have hwj := h.numbers j _ (List.getElem?_eq_getElem hj)
  simp only [List.getElem_map] at heq
  rw [heq, ← hwj] at hwi
  have hof := congrArg BitVec.toNat (add_left_cancel hwi)
  have hlen := h.window
  simp only [BitVec.toNat_ofNat] at hof
  omega

/-- What is left to resend after the first `k` reports of the window are acknowledged is the end of what is left there (R183). -/
theorem ReportUnit.SentSound.drop (h : u.SentSound) (k : Nat) : ({ u with
    window := u.window.drop k
    resend := u.resend.filter fun r => (u.window.take k).all fun q => q.seq != r.seq } : ReportUnit).SentSound := by
  refine ⟨?_, ?_, ?_⟩
  · have := h.window
    simp only [List.length_drop]
    omega
  · intro i r hr
    dsimp only at hr ⊢
    rw [List.getElem?_drop] at hr
    rw [List.length_drop, ← h.numbers _ r hr]
    congr 2
    omega
  · have hkeep : ∀ r ∈ u.window.drop k, ((u.window.take k).all fun q => q.seq != r.seq) = true := by
      intro r hr
      have hnd := h.seq_nodup
      rw [← List.take_append_drop k u.window, List.map_append, List.nodup_append] at hnd
      simp only [List.all_eq_true, bne_iff_ne]
      exact fun q hq => hnd.2.2 _ (List.mem_map_of_mem hq) _ (List.mem_map_of_mem hr)
    have hgone : ∀ r ∈ u.window.take k, ((u.window.take k).all fun q => q.seq != r.seq) = false := by
      intro r hr
      exact List.all_eq_false.mpr ⟨r, hr, by simp⟩
    obtain ⟨sent, hsent⟩ := h.resend
    rw [← List.take_append_drop k u.window, List.append_eq_append_iff] at hsent
    dsimp only
    obtain ⟨rest, hrest, hwhole⟩ | ⟨rest, hrest, hwhole⟩ := hsent
    · have hsub : ∀ r ∈ rest, r ∈ u.window.take k := fun r hr => hrest ▸ List.mem_append_right _ hr
      rw [hwhole, List.filter_append, List.filter_eq_nil_iff.mpr fun r hr => by simp [hgone r (hsub r hr)],
        List.filter_eq_self.mpr hkeep]
      exact List.suffix_refl _
    · rw [List.filter_eq_self.mpr fun r hr => hkeep r (hwhole ▸ List.mem_append_right _ hr)]
      exact ⟨rest, hwhole.symm⟩

theorem ReportUnit.Sound.acknowledge (h : u.Sound) (now : BitVec 16) (k : Nat) : (u.acknowledge now k).Sound := by
  refine transfer_sound now (h.sent.drop k) ?_
  have := h.total
  simp only [List.length_drop]
  omega

theorem mergeQueue_length (q : List Report) : (mergeQueue q).length ≤ q.length := by
  have hfold : ∀ acc : List Report,
      (q.foldl (fun acc r => (coalesce acc r).getD (acc ++ [r])) acc).length ≤ acc.length + q.length := by
    induction q with
    | nil => simp
    | cons r q ih =>
      intro acc
      have hstep : ((coalesce acc r).getD (acc ++ [r])).length ≤ acc.length + 1 := by
        cases hc : coalesce acc r with
        | some acc' => simp [coalesce_length _ _ _ hc]
        | none => simp
      have hrest := ih ((coalesce acc r).getD (acc ++ [r]))
      simp only [List.foldl_cons, List.length_cons]
      omega
  simpa [mergeQueue] using hfold []

theorem ReportUnit.Sound.resync (h : u.Sound) (now : BitVec 16) : (u.resync now).Sound := by
  refine transfer_sound now ⟨Nat.zero_le _, fun i r hr => by simp at hr, List.suffix_refl _⟩ ?_
  have hmerge := mergeQueue_length (u.window.map (·.report) ++ u.queue)
  have := h.total
  simp only [List.length_append, List.length_map, List.length_nil] at hmerge ⊢
  omega

theorem ReportUnit.Sound.fresh (cause : RestartCause) : (ReportUnit.fresh cause).Sound :=
  .of_sent ⟨Nat.zero_le _, fun i r hr => by simp [ReportUnit.fresh] at hr, List.suffix_refl _⟩ (by simp [ReportUnit.fresh])
    (.inr ⟨rfl, rfl⟩)

end

/-! ## Steps -/

section
variable {s t : State}

theorem ReportsSound.receiving : Receiving fun s => s.rep.Sound where
  aside := fun a h => a.rep ▸ h
  report := fun r h => h.handOver r
  rx := fun _ _ h => h
  mailbox := fun _ _ h => h

theorem finishNote_sound (n : Note) (o : NoteOutcome) (h : s.rep.Sound) : (s.finishNote n o).rep.Sound := by
  rw [finishNote_rep]
  exact h.placed _ _

theorem finishPacket_sound (l : Nat) (p : Packet) (o : PacketOutcome) (r : Option PacketReason) (h : s.rep.Sound) :
    (s.finishPacket l p o r).rep.Sound :=
  h.placed _ _

theorem ReportsSound.working : Working fun s => s.rep.Sound where
  aside := fun a h => a.rep ▸ h
  report := fun r h => h.handOver r
  discard := receiving.discardPacket
  windowOctet := fun o _ h => receiving.windowOctet _ _ o h
  modNote := fun _ _ _ h => h
  finishNote := fun n o _ h => finishNote_sound n o h
  finishNotes := fun ns o _ _ h => List.foldlRecOn (motive := fun s : State => s.rep.Sound) ns _ h fun _ h n _ => finishNote_sound n o h
  lanes := fun _ _ h => h
  finishPacket := fun l p o r _ h => finishPacket_sound l p o r h
  resetPackets := fun l h => List.foldlRecOn (motive := fun s : State => s.rep.Sound) _ _ h fun _ h p _ => finishPacket_sound l p _ _ h
  acceptNote := fun _ _ _ _ h => h
  acceptPacket := fun _ _ _ _ h => h
  mailboxSet := fun _ _ h => h
  takeMail := fun _ _ _ _ _ h => h
  flushMail := fun _ _ h => h
  acknowledge := fun i _ h => h.acknowledge _ (i + 1)
  resend := fun h => .of_sent ⟨h.window, h.numbers, List.suffix_refl _⟩ h.total h.settled

theorem startReply_sound (h : s.rep.Sound) : s.startReply.rep.Sound := h

theorem arbitrate_sound (h : s.rep.Sound) : s.arbitrate.rep.Sound := by
  unfold State.arbitrate
  dsimp only
  repeat' split
  · exact h
  · exact h
  next ha => exact h.startReport ha
  · exact h
  next ha _ => exact ReportUnit.Sound.startReport (s := { s with choices := s.choices + 1 }) h ha
  · exact h

theorem startNext_sound (h : s.rep.Sound) : s.startNext.rep.Sound := by
  unfold State.startNext
  dsimp only
  repeat' split
  · exact h
  next ha => exact ReportUnit.Sound.startReport (s := { s with link := _ }) h ha
  · exact h

theorem frameEnd_sound (h : s.rep.Sound) : s.frameEnd.rep.Sound := by
  unfold State.frameEnd
  repeat' split
  · exact h
  · exact startNext_sound h
  next x _ =>
    refine startNext_sound ?_
    cases x with
    | linkSet code => exact h
    | restart => exact .fresh _
  · exact startNext_sound h

theorem linkFault_sound (cause : LinkFaultCause) (h : s.rep.Sound) : (s.linkFault cause).rep.Sound := h.handOver _

theorem offerFrame_sound (f : Frame) (h : s.rep.Sound) : (s.offerFrame f).rep.Sound := by
  unfold State.offerFrame
  split
  · exact h
  · exact linkFault_sound _ h

theorem frameOctet_sound (o : Octet) (h : s.rep.Sound) : (s.frameOctet o).rep.Sound := by
  unfold State.frameOctet
  dsimp only
  repeat' split
  · exact h
  · exact h
  · exact linkFault_sound _ h
  iterate 4 exact h
  · exact offerFrame_sound _ h
  · exact linkFault_sound _ h

theorem framerOctet_sound (o : Octet) (h : s.rep.Sound) : (s.framerOctet o).rep.Sound := by
  unfold State.framerOctet
  repeat' split
  iterate 2 exact h
  iterate 3
    · exact linkFault_sound _ h
    · exact frameOctet_sound _ h
    · exact linkFault_sound _ h
    · exact h
    · exact frameOctet_sound _ h

theorem framingError_sound (h : s.rep.Sound) : s.framingError.rep.Sound := by
  unfold State.framingError
  split
  · exact h
  all_goals exact linkFault_sound _ h

theorem answers_sound (h : s.rep.Sound) (ha : Answers s t) : t.rep.Sound := by
  cases ha with
  | idle => exact h
  | request f u kind tag body _ hu =>
    have hwork : u.rep.Sound := ReportsSound.working.of_requestWork (P := fun s => s.rep.Sound) (s := s.afterTaking) h hu
    exact arbitrate_sound hwork
  | event u hu =>
    refine arbitrate_sound ?_
    cases hu with
    | powerOn _ => exact .fresh _
    | powerOnHeld c _ => exact .fresh _
    | pinAssert _ => exact h
    | pinRelease c _ => exact .fresh _
    | linkResync _ _ => exact h.resync _
    | breakEnd _ _ => exact h
    | character o _ _ => exact framerOctet_sound o h
    | framingError _ _ => exact framingError_sound h
    | line u hu => exact ReportsSound.working.of_lineWork (P := fun s => s.rep.Sound) h hu
  | frameEnd _ => exact frameEnd_sound h

/-- Settles O55: handing over keeps the bounds and the transfer's end, what goes out takes the next number, and what is acknowledged or
comes back leaves a window numbered in order. -/
theorem stepKeepsReportsInOrder : Obligations.StepKeepsReportsInOrder := fun s t hs hstep =>
  (reportsSound_iff t).mpr
    (step_keeps (fun s => s.rep.Sound) (fun _ _ h => h) (fun _ _ => answers_sound) ((reportsSound_iff s).mp hs) hstep)

end

end Sys2Proof.Machine
end

section
/-! SUPPORT. Live handles and Completion List places: a note or a packet that finishes hands its handle and its place to its completion,
and one that is accepted takes a number that names nothing live (R50, R121, R179); O53. -/

namespace Sys2Proof.Machine

/-- The note handles among completions. -/
def Completion.note? : Completion → Option Nat
  | .note d => some d.handle
  | .packet _ => none

/-- The packet handles among completions. -/
def Completion.packet? : Completion → Option Nat
  | .packet d => some d.handle
  | .note _ => none

section
variable {s t : State}

theorem liveNotes_eq (s : State) :
    s.liveNotes = s.notes.store.map (·.handle) ++ s.rep.entries.filterMap Completion.note? := by
  unfold State.liveNotes
  congr 2

theorem livePackets_eq (s : State) :
    s.livePackets = (s.lanes.map Lane.keys).flatten.map Prod.fst ++ s.rep.entries.filterMap Completion.packet? := by
  unfold State.livePackets
  congr 1
  simp [List.flatMap, List.map_flatten, Lane.keys, Function.comp_def]

theorem placesHeld_eq (s : State) :
    s.placesHeld = s.rep.entries.length + s.notes.store.length + ((s.lanes.map Lane.keys).map List.length).sum := by
  simp [State.placesHeld, Lane.keys, Function.comp_def]

/-! ## What finishing does to a list of handles -/

/-- A handle that leaves the unfinished ones and joins the completions stays alone of its number. -/
theorem nodup_of_finished {unfinished left entries entries' : List Nat} {x : Nat} (h : (unfinished ++ entries).Nodup)
    (hx : x ∈ unfinished) (hleft : left.Sublist unfinished) (hgone : x ∉ left) (he : entries'.Sublist (entries ++ [x])) :
    (left ++ entries').Nodup := by
  refine List.Nodup.sublist (List.Sublist.append (List.Sublist.refl left) he) ?_
  rw [← List.append_assoc, ← List.concat_eq_append, List.nodup_concat]
  obtain ⟨hu, he, hdisjoint⟩ := List.nodup_append.mp h
  refine ⟨fun hmem => ?_, h.sublist (hleft.append (List.Sublist.refl _))⟩
  obtain hmem | hmem := List.mem_append.mp hmem
  · exact hgone hmem
  · exact hdisjoint x hx x hmem rfl

theorem entries_placed (now : BitVec 16) (u : ReportUnit) (e : Completion) :
    (u.placed now e).entries <:+ u.entries ++ [e] := transfer_entries now _

theorem length_filter_lt {α : Type} {p : α → Bool} {l : List α} (h : ∃ x ∈ l, p x = false) :
    (l.filter p).length + 1 ≤ l.length := by
  obtain ⟨x, hx, hp⟩ := h
  exact List.length_filter_lt_length_iff_exists.mpr ⟨x, hx, by simp [hp]⟩

/-- A completion of the kind adds its handle. -/
theorem filterMap_placed {entries entries' : List Completion} {e : Completion} {x : Nat} (f : Completion → Option Nat)
    (hf : f e = some x) (h : entries' <:+ entries ++ [e]) :
    (entries'.filterMap f).Sublist (entries.filterMap f ++ [x]) := by
  simpa [hf] using h.sublist.filterMap f

/-- A completion of the other kind adds no handle. -/
theorem filterMap_placed_other {entries entries' : List Completion} {e : Completion} (f : Completion → Option Nat)
    (hf : f e = none) (h : entries' <:+ entries ++ [e]) : (entries'.filterMap f).Sublist (entries.filterMap f) := by
  simpa [hf] using h.sublist.filterMap f

/-! ## Notes -/

theorem finishNote_store (n : Note) (o : NoteOutcome) :
    (s.finishNote n o).notes.store = s.notes.store.filter fun m => m.handle != n.handle := by
  unfold State.finishNote
  dsimp only
  split <;> simp

theorem LiveHandles.finishNote (h : LiveHandles s) (n : Note) (o : NoteOutcome)
    (hn : ∃ m ∈ s.notes.store, m.handle = n.handle) : LiveHandles (s.finishNote n o) := by
  have hentries : (s.finishNote n o).rep.entries <:+ s.rep.entries ++ [n.completion o s.line.cycleCounter] := by
    rw [finishNote_rep]
    exact entries_placed _ _ _
  have hlanes : (s.finishNote n o).lanes = s.lanes := by simp
  obtain ⟨m, hm, hmn⟩ := hn
  refine ⟨?_, ?_, ?_, ?_⟩
  · rw [liveNotes_eq, finishNote_store]
    exact nodup_of_finished (liveNotes_eq s ▸ h.notes) (List.mem_map.mpr ⟨m, hm, hmn⟩) (List.filter_sublist.map _) (by simp)
      (filterMap_placed Completion.note? rfl hentries)
  · have hpackets := livePackets_eq s ▸ h.packets
    rw [livePackets_eq, hlanes]
    exact hpackets.sublist ((List.Sublist.refl _).append (filterMap_placed_other Completion.packet? rfl hentries))
  · have hplaces := placesHeld_eq s ▸ h.places
    have hlen := hentries.length_le
    have hstore : (s.notes.store.filter fun m => m.handle != n.handle).length + 1 ≤ s.notes.store.length :=
      length_filter_lt ⟨m, hm, by simp [hmn]⟩
    rw [placesHeld_eq, finishNote_store, hlanes]
    simp only [List.length_append, List.length_singleton] at hlen
    omega
  · intro x hx
    rw [finishNote_store] at hx
    exact h.stations x (List.mem_of_mem_filter hx)

theorem handles_nodup (h : LiveHandles s) : (s.notes.store.map (·.handle)).Nodup :=
  List.Nodup.of_append_left (liveNotes_eq s ▸ h.notes)

theorem handles_inj (h : LiveHandles s) {n m : Note} (hn : n ∈ s.notes.store) (hm : m ∈ s.notes.store)
    (he : n.handle = m.handle) : n = m :=
  List.inj_on_of_nodup_map (handles_nodup h) hn hm he

theorem store_nodup (h : LiveHandles s) : s.notes.store.Nodup := List.Nodup.of_map _ (handles_nodup h)

/-- Different notes of the store finish one after the other: each is still there when its turn comes. -/
theorem LiveHandles.finishNotes (ns : List Note) (o : NoteOutcome) (h : LiveHandles s) (hin : ∀ n ∈ ns, n ∈ s.notes.store)
    (hnd : ns.Nodup) : LiveHandles (s.finishNotes ns o) := by
  induction ns generalizing s with
  | nil => exact h
  | cons n ns ih =>
    have hn := hin n List.mem_cons_self
    refine ih (h.finishNote n o ⟨n, hn, rfl⟩) (fun m hm => ?_) (List.nodup_cons.mp hnd).2
    have hm' := hin m (List.mem_cons_of_mem n hm)
    rw [finishNote_store, List.mem_filter]
    refine ⟨hm', bne_iff_ne.mpr fun he => (List.nodup_cons.mp hnd).1 ?_⟩
    exact handles_inj h hm' hn he ▸ hm

/-! ## Packets -/

theorem keys_filter (x : Lane) (y : Nat) :
    ({ x with queue := x.queue.filter fun q => q.handle != y } : Lane).keys = x.keys.filter fun q => q.1 != y := by
  simp [Lane.keys, List.filter_map, Function.comp_def]

theorem lane_lt_of_keys {l : Nat} {q : Nat × Nat} (h : q ∈ (s.lane l).keys) : l < s.lanes.length := by
  by_contra hl
  simp [State.lane, List.getElem?_eq_none (Nat.le_of_not_lt hl), Lane.fresh, Lane.keys] at h

/-- A change of one lane, with the lanes before it and after it. -/
theorem modLane_split (s : State) {l : Nat} (hl : l < s.lanes.length) :
    ∃ A B : List Lane, s.lanes = A ++ s.lane l :: B
      ∧ ∀ f : Lane → Lane, s.lanes.modify l f = A ++ f (s.lane l) :: B :=
  ⟨s.lanes.take l, s.lanes.drop (l + 1), by simp [State.lane, hl], fun f => by
    rw [List.modify_eq_take_cons_drop hl]
    simp [State.lane, hl]⟩

theorem finishPacket_lanes (l : Nat) (p : Packet) (o : PacketOutcome) (r : Option PacketReason) :
    (s.finishPacket l p o r).lanes
      = s.lanes.modify l fun x => { x with queue := x.queue.filter fun q => q.handle != p.handle } := by
  simp [State.finishPacket]

theorem LiveHandles.finishPacket (h : LiveHandles s) (l : Nat) (p : Packet) (o : PacketOutcome) (r : Option PacketReason)
    (hp : (p.handle, p.declared) ∈ (s.lane l).keys) : LiveHandles (s.finishPacket l p o r) := by
  obtain ⟨A, B, hs, hmod⟩ := modLane_split s (lane_lt_of_keys hp)
  have hentries : (s.finishPacket l p o r).rep.entries <:+ s.rep.entries ++ [.packet (p.done l o r s.now)] :=
    entries_placed _ _ _
  have hnotes : (s.finishPacket l p o r).notes = s.notes := by simp
  have hlanes := (finishPacket_lanes (s := s) l p o r).trans (hmod _)
  have hhead : p.handle ∈ (s.lane l).keys.map Prod.fst := List.mem_map.mpr ⟨_, hp, rfl⟩
  have hplaces := placesHeld_eq s ▸ h.places
  have hpackets := livePackets_eq s ▸ h.packets
  rw [hs] at hpackets hplaces
  simp only [List.map_append, List.map_cons, List.flatten_append, List.flatten_cons] at hpackets hplaces
  refine ⟨?_, ?_, ?_, ?_⟩
  · have hn := liveNotes_eq s ▸ h.notes
    rw [liveNotes_eq, hnotes]
    exact hn.sublist ((List.Sublist.refl _).append (filterMap_placed_other Completion.note? rfl hentries))
  · rw [livePackets_eq, hlanes]
    simp only [List.map_append, List.map_cons, List.flatten_append, List.flatten_cons, keys_filter]
    refine nodup_of_finished hpackets (x := p.handle) ?_ ?_ ?_ (filterMap_placed Completion.packet? rfl hentries)
    · exact List.mem_append_right _ (List.mem_append_left _ hhead)
    · exact (List.Sublist.refl _).append ((List.filter_sublist.map _).append (List.Sublist.refl _))
    · obtain ⟨hA, hlB, hAl⟩ := List.nodup_append.mp (List.Nodup.of_append_left hpackets)
      obtain ⟨-, -, hB⟩ := List.nodup_append.mp hlB
      simp only [List.mem_append, not_or]
      refine ⟨fun hmem => hAl _ hmem _ (List.mem_append_left _ hhead) rfl, by simp, fun hmem => hB _ hhead _ hmem rfl⟩
  · have hlen := hentries.length_le
    have hqueue : ((s.lane l).keys.filter fun q => q.1 != p.handle).length + 1 ≤ (s.lane l).keys.length :=
      length_filter_lt ⟨_, hp, by simp⟩
    rw [placesHeld_eq, hnotes, hlanes]
    simp only [List.map_append, List.map_cons, List.sum_append, List.sum_cons, keys_filter, List.length_append,
      List.length_singleton] at hplaces hlen ⊢
    omega
  · rw [hnotes]
    exact h.stations

theorem keys_nodup (h : LiveHandles s) (l : Nat) : ((s.lane l).keys.map Prod.fst).Nodup := by
  by_cases hl : l < s.lanes.length
  · obtain ⟨A, B, hs, -⟩ := modLane_split s hl
    have hpackets := livePackets_eq s ▸ h.packets
    rw [hs] at hpackets
    simp only [List.map_append, List.map_cons, List.flatten_append, List.flatten_cons] at hpackets
    exact List.Nodup.of_append_left (List.Nodup.of_append_right (List.Nodup.of_append_left hpackets))
  · simp [State.lane, List.getElem?_eq_none (Nat.le_of_not_lt hl), Lane.fresh, Lane.keys]

theorem finishPacket_keys {l : Nat} {p : Packet} (o : PacketOutcome) (r : Option PacketReason)
    (hp : (p.handle, p.declared) ∈ (s.lane l).keys) :
    ((s.finishPacket l p o r).lane l).keys = (s.lane l).keys.filter fun q => q.1 != p.handle := by
  have hl := lane_lt_of_keys hp
  rw [← keys_filter, State.lane, finishPacket_lanes]
  simp [State.lane, hl]

/-- The packets of a lane finish one after the other: each is still there when its turn comes. -/
theorem finishPackets_keep {P : State → Prop} {l : Nat} (outcome : Packet → PacketOutcome) (reason : Option PacketReason)
    (hstep : ∀ (s : State) (p : Packet), (p.handle, p.declared) ∈ (s.lane l).keys → P s →
      P (s.finishPacket l p (outcome p) reason))
    (ps : List Packet) (h : P s) (hin : ∀ p ∈ ps, (p.handle, p.declared) ∈ (s.lane l).keys)
    (hnd : (ps.map (·.handle)).Nodup) : P (ps.foldl (fun s p => s.finishPacket l p (outcome p) reason) s) := by
  induction ps generalizing s with
  | nil => exact h
  | cons p ps ih =>
    have hp := hin p List.mem_cons_self
    rw [List.map_cons, List.nodup_cons] at hnd
    refine ih (hstep s p hp h) (fun q hq => ?_) hnd.2
    rw [finishPacket_keys _ _ hp, List.mem_filter]
    exact ⟨hin q (List.mem_cons_of_mem p hq), bne_iff_ne.mpr fun he => hnd.1 (List.mem_map.mpr ⟨q, hq, he⟩)⟩

theorem resetPackets_keep {P : State → Prop} (l : Nat) (hlive : ∀ s, P s → LiveHandles s)
    (hstep : ∀ (s : State) (p : Packet) (o : PacketOutcome) (r : Option PacketReason),
      (p.handle, p.declared) ∈ (s.lane l).keys → P s → P (s.finishPacket l p o r))
    (h : P s) : P ((s.lane l).queue.foldl (State.resetPacket l) s) :=
  finishPackets_keep (P := P) _ _ (fun s p hp h => hstep s p _ _ hp h) _ h
    (fun p hp => List.mem_map.mpr ⟨p, hp, rfl⟩) (by simpa [Lane.keys, Function.comp_def] using keys_nodup (hlive s h) l)

/-! ## What is accepted -/

theorem LiveHandles.acceptNote (h : LiveHandles s) {a : Nat} (octets : List Octet) (ha : isStation a = true)
    (hlimit : s.noteLimit a = none) : LiveHandles (s.acceptNote a octets) := by
  have hplaces : s.placesHeld < 96 := by
    unfold State.noteLimit at hlimit
    split_ifs at hlimit with _ _ h3
    exact Nat.lt_of_not_le h3
  have hfresh : s.nextNote ∉ s.liveNotes :=
    nextHandle_fresh _ _ (by have := liveNotes_length_le s; omega)
  refine ⟨?_, ?_, ?_, ?_⟩
  · have hn := h.notes
    rw [liveNotes_eq] at hn hfresh ⊢
    simp only [State.acceptNote, List.map_append, List.map_cons, List.map_nil, List.append_assoc]
    rw [List.singleton_append, List.nodup_middle]
    exact List.nodup_cons.mpr ⟨hfresh, hn⟩
  · exact h.packets
  · rw [placesHeld_eq] at hplaces ⊢
    simp only [State.acceptNote, List.length_append, List.length_singleton]
    omega
  · intro n hn
    obtain hn | hn := List.mem_append.mp hn
    · exact h.stations n hn
    · rw [List.mem_singleton.mp hn]
      exact (isStation_true_iff a).mp ha

theorem LiveHandles.acceptPacket (h : LiveHandles s) {f : PacketSendFields} (hlimit : s.packetLimit f.lane = none) :
    LiveHandles (s.acceptPacket f) := by
  have hplaces : s.placesHeld < 96 := by
    unfold State.packetLimit at hlimit
    split_ifs at hlimit with _ h2
    exact Nat.lt_of_not_le h2
  have hfresh : s.nextPacket ∉ s.livePackets :=
    nextHandle_fresh _ _ (by have := livePackets_length_le s; omega)
  have hpackets := h.packets
  by_cases hl : f.lane < s.lanes.length
  · obtain ⟨A, B, hs, hmod⟩ := modLane_split s hl
    have hlanes : (s.acceptPacket f).lanes
        = A ++ { s.lane f.lane with queue := (s.lane f.lane).queue ++ [s.newPacket f] } :: B := hmod _
    have hkeys : ({ s.lane f.lane with queue := (s.lane f.lane).queue ++ [s.newPacket f] } : Lane).keys
        = (s.lane f.lane).keys ++ [(s.nextPacket, f.declared)] := by
      simp [Lane.keys, State.newPacket]
    refine ⟨h.notes, ?_, ?_, h.stations⟩
    · rw [livePackets_eq] at hpackets hfresh ⊢
      have hentries : (s.acceptPacket f).rep = s.rep := rfl
      rw [hlanes, hentries]
      rw [hs] at hpackets hfresh
      simp only [List.map_append, List.map_cons, List.flatten_append, List.flatten_cons, hkeys, List.map_nil,
        List.append_assoc] at hpackets hfresh ⊢
      rw [List.singleton_append, ← List.append_assoc, List.nodup_middle]
      refine List.nodup_cons.mpr ⟨by simpa using hfresh, by simpa using hpackets⟩
    · rw [placesHeld_eq] at hplaces ⊢
      have hrest : (s.acceptPacket f).rep = s.rep ∧ (s.acceptPacket f).notes = s.notes := ⟨rfl, rfl⟩
      rw [hlanes, hrest.1, hrest.2]
      rw [hs] at hplaces
      simp only [List.map_append, List.map_cons, List.sum_append, List.sum_cons, hkeys, List.length_append,
        List.length_singleton] at hplaces ⊢
      omega
  · have hlanes : (s.acceptPacket f).lanes = s.lanes := List.modify_eq_self (Nat.le_of_not_lt hl)
    refine ⟨h.notes, ?_, ?_, h.stations⟩
    · rw [livePackets_eq, hlanes]
      exact livePackets_eq s ▸ hpackets
    · rw [placesHeld_eq, hlanes]
      exact placesHeld_eq s ▸ h.places

/-! ## Steps -/

/-- What the handles and the places are read from: the notes held, the queues and the completions. -/
theorem LiveHandles.of_suffix (h : LiveHandles s) (store : t.notes.store = s.notes.store)
    (lanes : t.lanes.map Lane.keys = s.lanes.map Lane.keys) (entries : t.rep.entries <:+ s.rep.entries) : LiveHandles t := by
  refine ⟨?_, ?_, ?_, store ▸ h.stations⟩
  · have hn := h.notes
    rw [liveNotes_eq] at hn ⊢
    rw [store]
    exact hn.sublist ((List.Sublist.refl _).append (entries.sublist.filterMap _))
  · have hp := h.packets
    rw [livePackets_eq] at hp ⊢
    rw [lanes]
    exact hp.sublist ((List.Sublist.refl _).append (entries.sublist.filterMap _))
  · have hplaces := h.places
    rw [placesHeld_eq] at hplaces ⊢
    rw [store, lanes]
    have := entries.length_le
    omega

theorem LiveHandles.of_aside (h : LiveHandles s) (a : Aside s t) : LiveHandles t :=
  h.of_suffix a.store (by rw [a.lanes]) (by rw [a.rep])

theorem LiveHandles.of_blocksKept (h : LiveHandles s) (k : BlocksKept s t) : LiveHandles t :=
  h.of_suffix (by rw [k.notes]) (by rw [k.lanes]) k.entries

theorem LiveHandles.report (h : LiveHandles s) (r : Report) : LiveHandles (s.report r) := h.of_blocksKept (.report s r)

theorem LiveHandles.modNote (h : LiveHandles s) (x : Nat) (f : Note → Note)
    (hf : ∀ m ∈ s.notes.store, m.handle = x → (f m).handle = x ∧ ∃ m' ∈ s.notes.store, (f m).station = m'.station) :
    LiveHandles (s.modNote x f) := by
  have hhandles : (s.modNote x f).notes.store.map (·.handle) = s.notes.store.map (·.handle) := by
    simp only [State.modNote, List.map_map]
    refine List.map_congr_left fun m hm => ?_
    by_cases hx : m.handle = x
    · simp [hx, (hf m hm hx).1]
    · simp [hx]
  refine ⟨?_, h.packets, ?_, ?_⟩
  · rw [liveNotes_eq, hhandles]
    exact liveNotes_eq s ▸ h.notes
  · have hlen : (s.modNote x f).notes.store.length = s.notes.store.length := List.length_map ..
    have hplaces := h.places
    rw [placesHeld_eq] at hplaces ⊢
    rw [hlen]
    exact hplaces
  · intro n hn
    obtain ⟨m, hm, rfl⟩ := List.mem_map.mp hn
    split
    next hx =>
      obtain ⟨-, m', hm', hs⟩ := hf m hm hx
      exact hs ▸ h.stations m' hm'
    · exact h.stations m hm

theorem LiveHandles.receiving : Receiving LiveHandles where
  aside := fun a h => h.of_aside a
  report := fun r h => h.report r
  rx := fun _ _ h => ⟨h.notes, h.packets, h.places, h.stations⟩
  mailbox := fun _ _ h => ⟨h.notes, h.packets, h.places, h.stations⟩

theorem LiveHandles.working : Working LiveHandles where
  aside := fun a h => h.of_aside a
  report := fun r h => h.report r
  discard := receiving.discardPacket
  windowOctet := fun o _ h => receiving.windowOctet _ _ o h
  modNote := fun x f hf h => h.modNote x f hf
  finishNote := fun n o hn h => h.finishNote n o hn
  finishNotes := fun ns o hin hnd h => h.finishNotes ns o hin (hnd (store_nodup h))
  lanes := fun _ hk h => h.of_suffix rfl hk (List.suffix_refl _)
  finishPacket := fun l p o r hp h => h.finishPacket l p o r hp
  resetPackets := fun l h => resetPackets_keep l (fun _ h => h) (fun _ p o r hp h => h.finishPacket l p o r hp) h
  acceptNote := fun _ octets ha hl h => h.acceptNote octets ha hl
  acceptPacket := fun _ _ hl _ h => h.acceptPacket hl
  mailboxSet := fun _ _ h => ⟨h.notes, h.packets, h.places, h.stations⟩
  takeMail := fun _ _ _ _ _ h => ⟨h.notes, h.packets, h.places, h.stations⟩
  flushMail := fun _ _ h => ⟨h.notes, h.packets, h.places, h.stations⟩
  acknowledge := fun _ _ h => h.of_suffix rfl rfl (transfer_entries _ _)
  resend := fun h => ⟨h.notes, h.packets, h.places, h.stations⟩

theorem LiveHandles.fresh (cause : RestartCause) (rate : Nat) : LiveHandles (State.fresh cause rate) where
  notes := List.nodup_nil
  packets := List.nodup_nil
  places := Nat.zero_le 96
  stations := fun _ hn => absurd hn List.not_mem_nil

/-- Settles O53: a handle and a place pass from what is unfinished to its completion, and what is accepted takes a number that names
nothing live while places are left. -/
theorem stepKeepsLiveHandles : Obligations.StepKeepsLiveHandles := fun _ _ hs hstep =>
  step_keeps_blocks LiveHandles (fun _ _ k h => h.of_blocksKept k) LiveHandles.fresh
    (fun _ h => LiveHandles.working.release h) (fun _ _ h hw => LiveHandles.working.of_requestWork h hw)
    (fun _ _ h hw => LiveHandles.working.of_lineWork h hw) hs hstep

end

end Sys2Proof.Machine
end

section
/-! SUPPORT. The buffer pool: each block that one place gives up another takes (R108, R110, R114, R115, R143, R147); O54. -/

namespace Sys2Proof.Machine

/-- The blocks that the receiver does not hold. -/
def State.outside (s : State) : Nat := s.free + s.txHeld + s.mailHeld

section
variable {s t : State}

theorem poolSound_of_outside (hrx : t.rx.held = 0) (hstate : ¬(t.rx.state = .body ∨ t.rx.state = .check))
    (h : t.outside = 256) : PoolSound t :=
  ⟨by rw [hrx]; exact h, fun hs => absurd hs hstate⟩

/-- While no packet is in BODY or CHECK, every block is outside the receiver. -/
theorem PoolSound.outside (h : PoolSound s) (hrx : s.rx.held = 0) : s.outside = 256 := by
  have := h.total
  rwa [hrx] at this

theorem PoolSound.of_parts (h : PoolSound s) (free : t.free = s.free) (lanes : t.lanes = s.lanes)
    (mailboxes : t.mailboxes = s.mailboxes) (rx : t.rx = s.rx) : PoolSound t := by
  obtain ⟨total, mailbox⟩ := h
  refine ⟨?_, rx ▸ mailbox⟩
  unfold State.txHeld State.mailHeld at *
  rwa [free, lanes, mailboxes, rx]

theorem PoolSound.of_aside (h : PoolSound s) (a : Aside s t) : PoolSound t := h.of_parts a.free a.lanes a.mailboxes a.rx

theorem PoolSound.of_blocksKept (h : PoolSound s) (k : BlocksKept s t) : PoolSound t :=
  h.of_parts k.free k.lanes k.mailboxes k.rx

theorem PoolSound.report (h : PoolSound s) (r : Report) : PoolSound (s.report r) := h.of_parts rfl rfl rfl rfl

theorem PoolSound.discardPacket (h : PoolSound s) : PoolSound s.discardPacket := by
  rw [discardPacket_eq]
  refine poolSound_of_outside ?_ ?_ ?_
  · unfold Receiver.discarded
    split
    next hs => simp [Receiver.held, hs]
    · rfl
  · unfold Receiver.discarded
    split
    next hs => simp [hs]
    · simp
  · have := h.total
    simp only [State.outside, State.txHeld, State.mailHeld] at this ⊢
    omega

theorem PoolSound.endWindow (h : PoolSound s) (e : WindowEnd) : PoolSound (s.endWindow e) := by
  unfold State.endWindow
  split
  · exact h
  · refine PoolSound.of_aside ?_ (.window _)
    repeat' split
    · exact h.report _
    · exact h
    · exact (h.report _).discardPacket
    · exact h.discardPacket

theorem PoolSound.idleReceiver (h : s.outside = 256) : PoolSound s.idleReceiver :=
  poolSound_of_outside rfl (by simp) h

/-! ## Mailboxes -/

/-- A change of one mailbox, with what the other mailboxes hold. -/
theorem mailHeld_modMailbox {m : Nat} (hm : m < s.mailboxes.length) : ∃ others,
    s.mailHeld = others + (s.mailbox m).held ∧ ∀ f, (s.modMailbox m f).mailHeld = others + (f (s.mailbox m)).held := by
  refine ⟨((s.mailboxes.take m).map Mailbox.held).sum + ((s.mailboxes.drop (m + 1)).map Mailbox.held).sum, ?_, fun f => ?_⟩
  · have hsplit : s.mailboxes = s.mailboxes.take m ++ s.mailbox m :: s.mailboxes.drop (m + 1) := by
      rw [State.mailbox_eq_getElem s hm]
      simp
    rw [State.mailHeld]
    conv_lhs => rw [hsplit]
    simp only [List.map_append, List.map_cons, List.sum_append, List.sum_cons]
    omega
  · have hsplit : (s.modMailbox m f).mailboxes = s.mailboxes.take m ++ f (s.mailbox m) :: s.mailboxes.drop (m + 1) := by
      rw [State.mailbox_eq_getElem s hm, State.modMailbox]
      exact List.modify_eq_take_cons_drop hm
    rw [State.mailHeld, hsplit]
    simp only [List.map_append, List.map_cons, List.sum_append, List.sum_cons]
    omega

theorem mailHeld_of_held (m : Nat) (f : Mailbox → Mailbox) (hf : ∀ b, (f b).held = b.held) :
    (s.modMailbox m f).mailHeld = s.mailHeld := by
  refine congrArg List.sum (List.ext_getElem? fun i => ?_)
  simp only [State.modMailbox, List.getElem?_map, List.getElem?_modify]
  cases s.mailboxes[i]? with
  | none => rfl
  | some b => by_cases hi : m = i <;> simp [hi, hf]

theorem outside_modMailbox (m : Nat) (f : Mailbox → Mailbox) (hf : ∀ b, (f b).held = b.held) :
    (s.modMailbox m f).outside = s.outside := by
  simp only [State.outside, mailHeld_of_held m f hf]
  rfl

theorem PoolSound.modMailbox (h : PoolSound s) (m : Nat) (f : Mailbox → Mailbox) (hf : ∀ b, (f b).held = b.held) :
    PoolSound (s.modMailbox m f) :=
  ⟨by rw [mailHeld_of_held m f hf]; exact h.total, h.mailbox⟩

theorem PoolSound.takeMail (h : PoolSound s) {m : Nat} {r : MailRecord} {rest : List MailRecord}
    (hm : m < s.mailboxes.length) (hr : (s.mailbox m).records = r :: rest) : PoolSound (s.takeMail m r) := by
  obtain ⟨others, hbefore, hafter⟩ := mailHeld_modMailbox hm
  refine ⟨?_, h.mailbox⟩
  have hheld : (s.mailbox m).held = blocksFor r.length + Mailbox.held { s.mailbox m with records := rest } := by
    simp [Mailbox.held, hr]
  have hmail : (s.takeMail m r).mailHeld = others + Mailbox.held { s.mailbox m with records := rest } := by
    refine (hafter fun b => { b with records := b.records.tail }).trans ?_
    rw [hr]
    rfl
  have htotal := h.total
  have hrest : (s.takeMail m r).free = s.free + blocksFor r.length ∧ (s.takeMail m r).txHeld = s.txHeld
    ∧ (s.takeMail m r).rx = s.rx := ⟨rfl, rfl, rfl⟩
  rw [hmail, hrest.1, hrest.2.1, hrest.2.2]
  omega

theorem PoolSound.flushMail (h : PoolSound s) {m : Nat} (hm : m < s.mailboxes.length) : PoolSound (s.flushMail m) := by
  obtain ⟨others, hbefore, hafter⟩ := mailHeld_modMailbox hm
  refine ⟨?_, h.mailbox⟩
  have hmail : (s.flushMail m).mailHeld = others := hafter fun b => { b with records := [] }
  have htotal := h.total
  have hrest : (s.flushMail m).free = s.free + (s.mailbox m).held ∧ (s.flushMail m).txHeld = s.txHeld
    ∧ (s.flushMail m).rx = s.rx := ⟨rfl, rfl, rfl⟩
  rw [hmail, hrest.1, hrest.2.1, hrest.2.2]
  omega

/-! ## The receiver -/

theorem sortFrom_lt {p st : Octet} {n m : Nat} {k : MatchKind} {ms : List Mailbox} (h : sortFrom p st n ms = some (m, k)) :
    m < n + ms.length := by
  induction ms generalizing n with
  | nil => cases h
  | cons b rest ih =>
    unfold sortFrom at h
    split at h
    · cases h
      simp
    · have := ih h
      simp only [List.length_cons]
      omega

theorem sort_lt {p st : Octet} {m : Nat} {k : MatchKind} (h : s.sort p st = some (m, k)) : m < s.mailboxes.length := by
  simpa using sortFrom_lt h

theorem PoolSound.drain (h : PoolSound s) (hrx : s.rx.held = 0) (w : Window) (port : Octet) (fault : SortFault)
    (box : Option (Nat × MatchKind)) : PoolSound (s.drain w port fault box) := by
  have hout := h.outside hrx
  have hdropped : ∀ m, (s.modMailbox m fun b => { b with dropped := sat16 b.dropped }).outside = 256 := fun m =>
    (outside_modMailbox m (fun b => { b with dropped := sat16 b.dropped }) fun _ => rfl).trans hout
  unfold State.drain
  refine poolSound_of_outside rfl (by simp) ?_
  split
  · exact hout
  · exact hout
  · exact hdropped _
  · exact hdropped _

theorem PoolSound.decideSort (h : PoolSound s) (hrx : s.rx.held = 0) (hboxes : s.mailboxes.length = 8) (w : Window)
    (port station : Octet) {length : Nat} (hlength : s.rx.record.length = some length) :
    PoolSound (s.decideSort w port station length) := by
  unfold State.decideSort
  split
  · exact h.drain hrx ..
  next m k hsort =>
    split
    · exact h.drain hrx ..
    · split
      · exact h.drain hrx ..
      next hfree =>
        refine ⟨?_, fun _ => ⟨m, rfl, hboxes ▸ sort_lt hsort⟩⟩
        have hout := h.outside hrx
        have hheld : Receiver.held
            { s.rx with
              state := if length = 0 then .check else .body
              record := { s.rx.record with mailbox := some m, matchKind := some k } } = blocksFor length := by
          unfold Receiver.held
          split_ifs <;> simp [hlength]
        simp only [hheld, State.outside, State.txHeld, State.mailHeld] at hout ⊢
        omega

theorem PoolSound.judgeHeader (h : PoolSound s) (hrx : s.rx.held = 0) (hboxes : s.mailboxes.length = 8) (w : Window)
    (port station : Octet) {length : Nat} (hlength : s.rx.record.length = some length) :
    PoolSound (s.judgeHeader w port station length) := by
  have hout := h.outside hrx
  unfold State.judgeHeader
  dsimp only
  repeat' split
  · refine PoolSound.endWindow (.idleReceiver ?_) _
    exact hout
  · refine PoolSound.endWindow (.idleReceiver ?_) _
    exact hout
  · exact h.decideSort hrx hboxes w port station hlength

/-- The blocks pass from the receiver to the mailbox (R147). -/
theorem PoolSound.storePacket (h : PoolSound s) (hboxes : s.mailboxes.length = 8) (hstate : s.rx.state = .check)
    (port : Octet) (source : Nat) (k : MatchKind) :
    PoolSound (s.storePacket port source (s.rx.record.length.getD 0) (s.rx.record.mailbox.getD 0) k) := by
  obtain ⟨m, hm, hm8⟩ := h.mailbox (.inr hstate)
  obtain ⟨others, hbefore, hafter⟩ := mailHeld_modMailbox (hboxes ▸ hm8 : m < s.mailboxes.length)
  have hheld : s.rx.held = blocksFor (s.rx.record.length.getD 0) := by simp [Receiver.held, hstate]
  have htotal := h.total
  have hstored : ∀ r : MailRecord, r.length = s.rx.record.length.getD 0 →
      (s.modMailbox m fun b => { b with records := b.records ++ [r] }).outside = 256 := by
    intro r hr
    have hmail : Mailbox.held { s.mailbox m with records := (s.mailbox m).records ++ [r] }
        = (s.mailbox m).held + blocksFor r.length := by
      simp [Mailbox.held]
    have hrest : ∀ f, (s.modMailbox m f).free = s.free ∧ (s.modMailbox m f).txHeld = s.txHeld := fun _ => ⟨rfl, rfl⟩
    rw [State.outside, (hrest _).1, (hrest _).2, hafter, hmail, hr]
    omega
  unfold State.storePacket
  dsimp only
  rw [hm]
  refine PoolSound.endWindow (.idleReceiver ?_) _
  split
  · exact hstored _ rfl
  · exact hstored _ rfl

theorem PoolSound.rejectPacket (h : PoolSound s) (w : Window) (received : BitVec 16) :
    PoolSound (s.rejectPacket w received) := by
  refine PoolSound.endWindow (.idleReceiver ?_) _
  refine Eq.trans ?_ h.total
  simp only [State.outside, State.txHeld, State.mailHeld, State.modStation_free, State.modStation_lanes,
    State.modStation_mailboxes, State.report]
  omega

/-- A record of the same length and the same mailbox holds the same blocks. -/
theorem PoolSound.withRecord (h : PoolSound s) {state : ReceiverState} {r : ReceiveRecord}
    (hheld : Receiver.held { s.rx with state := state, record := r } = s.rx.held)
    (hbox : (state = .body ∨ state = .check) → ∃ m, r.mailbox = some m ∧ m < 8) : PoolSound (s.withRecord state r) :=
  ⟨by
    have := h.total
    rw [← hheld] at this
    exact this, hbox⟩

theorem PoolSound.takeHeader (h : PoolSound s) (hboxes : s.mailboxes.length = 8) (hstate : s.rx.state = .header)
    (w : Window) (o : Octet) : PoolSound (s.takeHeader w o) := by
  have hrx : s.rx.held = 0 := by simp [Receiver.held, hstate]
  have hkept : ∀ r, PoolSound (s.withRecord .header r) := fun r =>
    h.withRecord (by rw [hrx]; rfl) (by simp)
  unfold State.takeHeader
  dsimp only
  split
  · exact hkept _
  · exact hkept _
  · exact (hkept _).judgeHeader rfl hboxes w _ _ rfl

theorem PoolSound.receive (h : PoolSound s) (hboxes : s.mailboxes.length = 8) (w : Window) (o : Octet) :
    PoolSound (s.receive w o) := by
  unfold State.receive
  dsimp only
  split
  next hstate =>
    split
    · exact h
    · exact h.withRecord (by simp [Receiver.held, hstate]) (by simp)
  next hstate => exact h.takeHeader hboxes hstate w o
  next hstate =>
    refine h.withRecord ?_ fun _ => h.mailbox (.inl hstate)
    split_ifs <;> simp [Receiver.held, hstate, ReceiveRecord.takeChecked]
  next hstate =>
    split
    · exact h.withRecord (by simp [Receiver.held, hstate, ReceiveRecord.take]) fun _ => h.mailbox (.inr hstate)
    · split
      · exact h.storePacket hboxes hstate _ _ _
      · exact h.rejectPacket w _
  next hstate =>
    split
    · exact PoolSound.endWindow (.idleReceiver (h.outside (by simp [Receiver.held, hstate]))) _
    · exact h.withRecord (by simp [Receiver.held, hstate]) (by simp)

theorem PoolSound.windowOctet (h : PoolSound s) (hboxes : s.mailboxes.length = 8) (w : Window) (slot : Nat) (o : Octet) :
    PoolSound (s.windowOctet w slot o) := by
  obtain ⟨w', -, he | he⟩ := windowOctet_cases s w slot o
  all_goals
    have hw : PoolSound { s with window := { s.window with window := some w' } } := h.of_aside (.window _)
    rw [he]
  · exact hw.receive hboxes w' o
  · exact (hw.receive hboxes w' o).endWindow _

/-! ## Lanes -/

/-- The blocks of a queue, from its keys. -/
def keyBlocks (ks : List (Nat × Nat)) : Nat := (ks.map fun q => blocksFor q.2).sum

theorem txHeld_eq (s : State) : s.txHeld = ((s.lanes.map Lane.keys).map keyBlocks).sum := by
  rw [State.txHeld, List.map_map]
  refine congrArg List.sum (List.map_congr_left fun x _ => ?_)
  simp [Lane.held, Lane.keys, keyBlocks, Function.comp_def]

/-- A queue gives up the blocks of the one packet with the handle. -/
theorem keyBlocks_filter {ks : List (Nat × Nat)} {x d : Nat} (hnd : (ks.map Prod.fst).Nodup) (h : (x, d) ∈ ks) :
    keyBlocks (ks.filter fun q => q.1 != x) + blocksFor d = keyBlocks ks := by
  induction ks with
  | nil => cases h
  | cons q ks ih =>
    rw [List.map_cons, List.nodup_cons] at hnd
    obtain heq | h := List.mem_cons.mp h
    · subst heq
      have hall : ks.filter (fun q => q.1 != x) = ks :=
        List.filter_eq_self.mpr fun q hq => bne_iff_ne.mpr fun he => hnd.1 (List.mem_map.mpr ⟨q, hq, he⟩)
      simp [keyBlocks, hall, Nat.add_comm]
    · have hne : q.1 ≠ x := fun he => hnd.1 (List.mem_map.mpr ⟨_, h, he.symm⟩)
      have hrest := ih hnd.2 h
      simp only [keyBlocks, List.map_cons, List.sum_cons] at hrest ⊢
      rw [List.filter_cons, if_pos (bne_iff_ne.mpr hne)]
      simp only [List.map_cons, List.sum_cons]
      omega

theorem PoolSound.lanes (h : PoolSound s) (ls : List Lane) (hk : ls.map Lane.keys = s.lanes.map Lane.keys) :
    PoolSound { s with lanes := ls } := by
  refine ⟨?_, h.mailbox⟩
  have htx : State.txHeld { s with lanes := ls } = s.txHeld := by rw [txHeld_eq, txHeld_eq, hk]
  rw [htx]
  exact h.total

theorem PoolSound.finishPacket (h : PoolSound s) (hlive : LiveHandles s) (l : Nat) (p : Packet) (o : PacketOutcome)
    (r : Option PacketReason) (hp : (p.handle, p.declared) ∈ (s.lane l).keys) : PoolSound (s.finishPacket l p o r) := by
  obtain ⟨A, B, hs, hmod⟩ := modLane_split s (lane_lt_of_keys hp)
  have hlanes := (finishPacket_lanes (s := s) l p o r).trans (hmod _)
  have hqueue := keyBlocks_filter (keys_nodup hlive l) hp
  have hrest : (s.finishPacket l p o r).free = s.free + blocksFor p.declared
      ∧ (s.finishPacket l p o r).mailHeld = s.mailHeld ∧ (s.finishPacket l p o r).rx = s.rx := ⟨rfl, rfl, rfl⟩
  have htotal := h.total
  refine ⟨?_, h.mailbox⟩
  rw [hrest.1, hrest.2.1, hrest.2.2]
  rw [txHeld_eq, hs] at htotal
  rw [txHeld_eq, hlanes]
  simp only [List.map_append, List.map_cons, List.sum_append, List.sum_cons, keys_filter] at htotal ⊢
  omega

theorem PoolSound.acceptPacket (h : PoolSound s) {f : PacketSendFields} (hl : f.lane < s.lanes.length)
    (hgrant : s.grants (blocksFor f.declared) = true) : PoolSound (s.acceptPacket f) := by
  obtain ⟨A, B, hs, hmod⟩ := modLane_split s hl
  have hlanes : (s.acceptPacket f).lanes
      = A ++ { s.lane f.lane with queue := (s.lane f.lane).queue ++ [s.newPacket f] } :: B := hmod _
  have hkeys : keyBlocks (Lane.keys { s.lane f.lane with queue := (s.lane f.lane).queue ++ [s.newPacket f] })
      = keyBlocks (s.lane f.lane).keys + blocksFor f.declared := by
    simp [Lane.keys, State.newPacket, keyBlocks]
  have hrest : (s.acceptPacket f).free = s.free - blocksFor f.declared ∧ (s.acceptPacket f).mailHeld = s.mailHeld
      ∧ (s.acceptPacket f).rx = s.rx := ⟨rfl, rfl, rfl⟩
  have hroom : blocksFor f.declared + s.line.settings.receiveReserve ≤ s.free := of_decide_eq_true hgrant
  have htotal := h.total
  refine ⟨?_, h.mailbox⟩
  rw [hrest.1, hrest.2.1, hrest.2.2]
  rw [txHeld_eq, hs] at htotal
  rw [txHeld_eq, hlanes]
  simp only [List.map_append, List.map_cons, List.sum_append, List.sum_cons, hkeys] at htotal ⊢
  omega

theorem inRange_lane {f : PacketSendFields} (h : f.inRange = true) : f.lane < 4 := (of_decide_eq_true h).1

end

/-! ## Steps -/

/-- The pool with what its accounts rest on: the tables' sizes, and handles that name one packet. -/
structure PoolKept (s : State) : Prop where
  shape : Shape s
  live : LiveHandles s
  pool : PoolSound s

section
variable {s : State}

theorem PoolKept.finishPacket (h : PoolKept s) (l : Nat) (p : Packet) (o : PacketOutcome) (r : Option PacketReason)
    (hp : (p.handle, p.declared) ∈ (s.lane l).keys) : PoolKept (s.finishPacket l p o r) :=
  ⟨h.shape.finishPacket l p o r, h.live.finishPacket l p o r hp, h.pool.finishPacket h.live l p o r hp⟩

theorem PoolSound.finishNote (h : PoolSound s) (n : Note) (o : NoteOutcome) : PoolSound (s.finishNote n o) :=
  h.of_parts (by simp) (by simp) (by simp) (by simp)

theorem PoolKept.working : Working PoolKept where
  aside := fun a h => ⟨Shape.working.aside a h.shape, LiveHandles.working.aside a h.live, h.pool.of_aside a⟩
  report := fun r h => ⟨Shape.working.report r h.shape, LiveHandles.working.report r h.live, h.pool.report r⟩
  discard := fun h => ⟨Shape.working.discard h.shape, LiveHandles.working.discard h.live, h.pool.discardPacket⟩
  windowOctet := fun o hw h => ⟨Shape.working.windowOctet o hw h.shape, LiveHandles.working.windowOctet o hw h.live,
    h.pool.windowOctet h.shape.mailboxes _ _ o⟩
  modNote := fun x f hf h => ⟨Shape.working.modNote x f hf h.shape, LiveHandles.working.modNote x f hf h.live,
    h.pool.of_parts rfl rfl rfl rfl⟩
  finishNote := fun n o hn h => ⟨Shape.working.finishNote n o hn h.shape, LiveHandles.working.finishNote n o hn h.live,
    h.pool.finishNote n o⟩
  finishNotes := fun ns o hin hnd h => ⟨Shape.working.finishNotes ns o hin hnd h.shape,
    LiveHandles.working.finishNotes ns o hin hnd h.live,
    List.foldlRecOn (motive := PoolSound) ns _ h.pool fun _ h n _ => h.finishNote n o⟩
  lanes := fun ls hk h => ⟨Shape.working.lanes ls hk h.shape, LiveHandles.working.lanes ls hk h.live, h.pool.lanes ls hk⟩
  finishPacket := fun l p o r hp h => h.finishPacket l p o r hp
  resetPackets := fun l h => resetPackets_keep l (fun _ h => h.live) (fun _ p o r hp h => h.finishPacket l p o r hp) h
  acceptNote := fun a octets ha hl h => ⟨Shape.working.acceptNote a octets ha hl h.shape,
    LiveHandles.working.acceptNote a octets ha hl h.live, h.pool.of_parts rfl rfl rfl rfl⟩
  acceptPacket := fun f hr hl hg h => ⟨Shape.working.acceptPacket f hr hl hg h.shape,
    LiveHandles.working.acceptPacket f hr hl hg h.live,
    h.pool.acceptPacket (h.shape.lanes ▸ inRange_lane hr) hg⟩
  mailboxSet := fun m f h => ⟨Shape.working.mailboxSet m f h.shape, LiveHandles.working.mailboxSet m f h.live,
    h.pool.modMailbox m _ fun _ => rfl⟩
  takeMail := fun m r rest hm hr h => ⟨Shape.working.takeMail m r rest hm hr h.shape,
    LiveHandles.working.takeMail m r rest hm hr h.live, h.pool.takeMail (h.shape.mailboxes ▸ hm) hr⟩
  flushMail := fun m hm h => ⟨Shape.working.flushMail m hm h.shape, LiveHandles.working.flushMail m hm h.live,
    h.pool.flushMail (h.shape.mailboxes ▸ hm)⟩
  acknowledge := fun i hi h => ⟨Shape.working.acknowledge i hi h.shape, LiveHandles.working.acknowledge i hi h.live,
    h.pool.of_parts rfl rfl rfl rfl⟩
  resend := fun h => ⟨Shape.working.resend h.shape, LiveHandles.working.resend h.live, h.pool.of_parts rfl rfl rfl rfl⟩

theorem PoolKept.of_blocksKept {t : State} (h : PoolKept s) (k : BlocksKept s t) : PoolKept t :=
  ⟨h.shape.of_blocksKept k, h.live.of_blocksKept k, h.pool.of_blocksKept k⟩

theorem PoolSound.fresh (cause : RestartCause) (rate : Nat) : PoolSound (State.fresh cause rate) :=
  poolSound_of_outside rfl (by simp [State.fresh, Receiver.fresh]) rfl

theorem PoolKept.fresh (cause : RestartCause) (rate : Nat) : PoolKept (State.fresh cause rate) :=
  ⟨Shape.fresh cause rate, LiveHandles.fresh cause rate, PoolSound.fresh cause rate⟩

end

/-- Settles O54: a queue, a mailbox or the receiver gives up a packet's blocks exactly when the free blocks or a mailbox take
them. -/
theorem stepKeepsPoolTotal : Obligations.StepKeepsPoolTotal := fun _ _ hshape hlive hpool hstep =>
  PoolKept.pool <| step_keeps_blocks PoolKept (fun _ _ k h => h.of_blocksKept k) PoolKept.fresh
    (fun _ h => PoolKept.working.release h) (fun _ _ h hw => PoolKept.working.of_requestWork h hw)
    (fun _ _ h hw => PoolKept.working.of_lineWork h hw) ⟨hshape, hlive, hpool⟩ hstep

end Sys2Proof.Machine
end

section
/-! SUPPORT. The host link between events: the transmitter's choice settles what the work of an event leaves ready (R163, R166, R168);
O56. -/

namespace Sys2Proof.Machine

/-- The host link before the transmitter is given its choice: `LinkSound` but for the idle transmitter. -/
structure HostLink.Ready (l : HostLink) (pin : ResetPin) : Prop where
  intake : l.intake.length ≤ 4
  replies : l.replies.length ≤ 4
  sending : l.tx = .reply → l.replies ≠ []
  silent : pin ≠ .high ∨ l.rxLow = true → l.tx = .idle
  held : l.hold ≠ none → l.replies ≠ []
  finishing : l.finishing ≠ none → pin = .high ∧ l.rxLow = true

section
variable {s t : State} {l : HostLink} {pin : ResetPin}

theorem LinkSound.ready (h : LinkSound s) : s.link.Ready s.pin :=
  ⟨h.intake, h.replies, h.sending, h.silent, h.held, h.finishing⟩

theorem LinkSound.of_ready (h : s.link.Ready s.pin)
    (idle : s.pin = .high → s.link.rxLow = false → s.link.tx = .idle → s.link.replies = [] ∧ s.rep.available = false) :
    LinkSound s :=
  ⟨h.intake, h.replies, h.sending, h.silent, idle, h.held, h.finishing⟩

/-! ## The transmitter's choice (R166) -/

/-- A frame starts, while the pin and the receive line are high. -/
theorem HostLink.Ready.start (h : l.Ready .high) (hlow : l.rxLow = false) {x : Tx} (hx : x = .reply → l.replies ≠ []) :
    ({ l with tx := x } : HostLink).Ready .high where
  intake := h.intake
  replies := h.replies
  sending := hx
  silent := fun hs => by simp [hlow] at hs
  held := h.held
  finishing := h.finishing

theorem startReport_link (ha : s.rep.available = true) :
    s.startReport.pin = s.pin ∧ ∃ f, s.startReport.link = { s.link with tx := .report f } := by
  rw [ReportUnit.available_iff] at ha
  unfold State.startReport
  split
  · exact ⟨rfl, _, rfl⟩
  · exact ⟨rfl, _, rfl⟩
  next hr hq => simp [hr, hq] at ha

theorem linkSound_startReply (h : s.link.Ready s.pin) (hpin : s.pin = .high) (hlow : s.link.rxLow = false)
    (hr : s.link.replies ≠ []) : LinkSound s.startReply := by
  refine .of_ready ?_ fun _ _ htx => by cases htx
  rw [hpin] at h
  exact (congrArg _ hpin).mpr (h.start hlow fun _ => hr)

theorem linkSound_startReport (h : s.link.Ready s.pin) (hpin : s.pin = .high) (hlow : s.link.rxLow = false)
    (ha : s.rep.available = true) : LinkSound s.startReport := by
  obtain ⟨hp, f, hf⟩ := startReport_link ha
  rw [hpin] at h hp
  refine .of_ready ?_ fun _ _ htx => by simp [hf] at htx
  rw [hf, hp]
  exact h.start hlow fun hx => by cases hx

theorem linkSound_arbitrate (h : s.link.Ready s.pin) : LinkSound s.arbitrate := by
  unfold State.arbitrate
  dsimp only
  split
  next hfree =>
    obtain ⟨hpin, hlow, htx⟩ := hfree
    split
    next hr ha => exact .of_ready h fun _ _ _ => ⟨by simpa using hr, ha⟩
    next hr _ => exact linkSound_startReply h hpin hlow (by simpa using hr)
    next _ ha => exact linkSound_startReport h hpin hlow ha
    next hr ha =>
      split
      · exact linkSound_startReply (s := { s with choices := s.choices + 1 }) h hpin hlow (by simpa using hr)
      · exact linkSound_startReport (s := { s with choices := s.choices + 1 }) h hpin hlow ha
  next hbusy => exact .of_ready h fun hpin hlow htx => absurd ⟨hpin, hlow, htx⟩ hbusy

theorem linkSound_startNext (h : s.link.Ready .high) (hpin : s.pin = .high) (hlow : s.link.rxLow = false) :
    LinkSound s.startNext := by
  have hidle : ({ s.link with tx := .idle } : HostLink).Ready s.pin := hpin ▸ h.start hlow fun hx => by cases hx
  unfold State.startNext
  dsimp only
  split
  next hr => exact linkSound_startReply (s := { s with link := { s.link with tx := .idle } }) hidle hpin hlow (by simpa using hr)
  next hr =>
    split
    next ha => exact linkSound_startReport (s := { s with link := { s.link with tx := .idle } }) hidle hpin hlow ha
    next ha =>
      exact .of_ready (s := { s with link := { s.link with tx := .idle } }) hidle fun _ _ _ =>
        ⟨by simpa using hr, by simpa using ha⟩

/-! ## The receive framer (R161 to R163) -/

theorem HostLink.Ready.framed (h : l.Ready pin) (f : Framer) (n : Nat) :
    ({ l with framer := f, faultCount := n } : HostLink).Ready pin :=
  ⟨h.intake, h.replies, h.sending, h.silent, h.held, h.finishing⟩

theorem ready_withFramer (h : s.link.Ready s.pin) (f : Framer) : (s.withFramer f).link.Ready (s.withFramer f).pin :=
  h.framed f _

theorem ready_linkFault (h : s.link.Ready s.pin) (cause : LinkFaultCause) :
    (s.linkFault cause).link.Ready (s.linkFault cause).pin :=
  h.framed _ _

theorem ready_offerFrame (h : s.link.Ready s.pin) (f : Frame) : (s.offerFrame f).link.Ready (s.offerFrame f).pin := by
  unfold State.offerFrame
  split
  next hroom =>
    refine ⟨?_, h.replies, h.sending, h.silent, h.held, h.finishing⟩
    simpa using hroom
  · exact ready_linkFault h _

theorem ready_frameOctet (h : s.link.Ready s.pin) (o : Octet) : (s.frameOctet o).link.Ready (s.frameOctet o).pin := by
  unfold State.frameOctet
  dsimp only
  repeat' split
  · exact h
  · exact ready_withFramer h _
  · exact ready_linkFault h _
  iterate 4 exact ready_withFramer h _
  · exact ready_offerFrame h _
  · exact ready_linkFault h _

theorem ready_framerOctet (h : s.link.Ready s.pin) (o : Octet) : (s.framerOctet o).link.Ready (s.framerOctet o).pin := by
  unfold State.framerOctet
  repeat' split
  · exact ready_withFramer h _
  · exact h
  iterate 3
    · exact ready_linkFault h _
    · exact ready_frameOctet h _
    · exact ready_linkFault h _
    · exact ready_withFramer h _
    · exact ready_frameOctet h _

theorem ready_framingError (h : s.link.Ready s.pin) : s.framingError.link.Ready s.framingError.pin := by
  unfold State.framingError
  split
  · exact h
  all_goals exact ready_linkFault h _

/-! ## Requests, events and the ends of frames -/

theorem LineWork.link_pin (h : LineWork s t) : t.link = s.link ∧ t.pin = s.pin := by
  cases h with
  | cycleStart _ =>
    unfold State.startCycle
    repeat' split
    · simp
    · simp
    · exact ⟨rfl, rfl⟩
  | cycleEnd good _ => simp
  | answer o _ => simp
  | bid b _ =>
    unfold State.judgeBid
    repeat' split
    · exact ⟨rfl, rfl⟩
    · exact ⟨rfl, rfl⟩
    · simp
    · exact ⟨rfl, rfl⟩
  | windowOctet slot o w _ => simp
  | circuitOctet slot n o c _ => simp
  | drive slot o => simp
  | laneTurn l slot _ => simp

/-- A request's work touches the link only to hold the request (R169, R171). -/
theorem RequestWork.link_pin (h : RequestWork s t) :
    t.pin = s.pin ∧ ∃ x, t.link = { s.link with hold := x } := by
  have hkept : ∀ u : State, u.pin = s.pin ∧ u.link = s.link → u.pin = s.pin ∧ ∃ x, u.link = { s.link with hold := x } :=
    fun u hu => ⟨hu.1, s.link.hold, hu.2⟩
  cases h with
  | hold x => exact ⟨rfl, some x, rfl⟩
  | unchanged => exact hkept _ ⟨rfl, rfl⟩
  | lineSet x => exact hkept _ ⟨rfl, rfl⟩
  | noteSend a octets _ _ => exact hkept _ ⟨rfl, rfl⟩
  | packetSend f _ _ _ => exact hkept _ ⟨rfl, rfl⟩
  | mailboxTake m r rest _ _ => exact hkept _ ⟨rfl, rfl⟩
  | mailboxFlush m _ => exact hkept _ ⟨rfl, rfl⟩
  | reportAck i _ => exact hkept _ ⟨rfl, rfl⟩
  | reportResend => exact hkept _ ⟨rfl, rfl⟩
  | _ => exact hkept _ (by simp)

/-- A reply joins a queue that has a place for it. -/
theorem HostLink.Ready.queueReply (h : l.Ready pin) (hroom : l.replies.length < 4) (x : Option Hold) (f : Frame) :
    ({ l with intake := l.intake.tail, hold := x, replies := l.replies ++ [f] } : HostLink).Ready pin where
  intake := by
    have := h.intake
    rw [List.length_tail]
    omega
  replies := by
    rw [List.length_append, List.length_singleton]
    omega
  sending := fun _ => by simp
  silent := h.silent
  held := fun _ => by simp
  finishing := h.finishing

theorem HostLink.Ready.fresh (rate : Nat) (pin : ResetPin) : (HostLink.fresh rate).Ready pin where
  intake := Nat.zero_le 4
  replies := Nat.zero_le 4
  sending := fun h => by cases h
  silent := fun _ => rfl
  held := fun h => absurd rfl h
  finishing := fun h => absurd rfl h

theorem HostLink.Ready.resync (l : HostLink) (place : Nat) : (l.resync place).Ready .high where
  intake := Nat.zero_le 4
  replies := Nat.zero_le 4
  sending := fun h => by cases h
  silent := fun _ => rfl
  held := fun h => absurd rfl h
  finishing := fun _ => ⟨rfl, rfl⟩

/-- The transmitter stops, and no character is left in progress. -/
theorem HostLink.Ready.stopped (h : l.Ready pin) (p : ResetPin) (low : Bool) :
    ({ l with tx := .idle, rxLow := low, finishing := none } : HostLink).Ready p where
  intake := h.intake
  replies := h.replies
  sending := fun hx => by cases hx
  silent := fun _ => rfl
  held := h.held
  finishing := fun hx => absurd rfl hx

theorem EventWork.ready (h : s.link.Ready s.pin) (hw : EventWork s t) : t.link.Ready t.pin := by
  cases hw with
  | powerOn _ => exact .fresh _ _
  | powerOnHeld c _ => exact .fresh _ _
  | pinAssert _ => exact h.stopped _ s.link.rxLow
  | pinRelease c _ => exact .fresh _ _
  | linkResync hpin _ =>
    exact (congrArg _ hpin).mpr (.resync _ _)
  | breakEnd hpin hlow =>
    have hidle : ({ s.link with rxLow := false, finishing := none } : HostLink)
        = { s.link with tx := .idle, rxLow := false, finishing := none } := by
      rw [← h.silent (.inr hlow)]
    rw [hidle]
    exact h.stopped _ false
  | character o _ _ => exact ready_framerOctet h o
  | framingError _ _ => exact ready_framingError h
  | line u hu =>
    obtain ⟨hl, hp⟩ := hu.link_pin
    rw [hl, hp]
    exact h

/-- The reply that has gone out leaves the queue: a request stays held only behind another one (R166, R169, R171). -/
theorem ready_popReply (h : s.link.Ready .high) (hpin : s.pin = .high) (htx : s.link.tx = .reply)
    (hheld : s.heldReplyOut = none) : s.popReply.link.Ready .high where
  intake := h.intake
  replies := by
    have := h.replies
    simp only [State.popReply, List.length_tail]
    omega
  sending := fun hx => by cases hx
  silent := fun _ => rfl
  held := fun hx hempty => by
    have hone : s.link.replies.length = 1 := by
      have hne := List.length_pos_of_ne_nil (h.held hx)
      have htail : s.link.replies.tail.length = 0 := by rw [show s.link.replies.tail = [] from hempty]; rfl
      rw [List.length_tail] at htail
      omega
    unfold State.heldReplyOut at hheld
    rw [if_pos ⟨hpin, htx, hone⟩] at hheld
    exact hx hheld
  finishing := h.finishing

/-- The hold ends with the queue empty (R169). -/
theorem ready_changeRate (h : s.link.Ready .high) (code : Nat) : (s.popReply.changeRate code).link.Ready .high where
  intake := h.intake
  replies := by
    have := h.replies
    simp only [State.changeRate, State.popReply, List.length_tail]
    omega
  sending := fun hx => by cases hx
  silent := fun _ => rfl
  held := fun hx => absurd rfl hx
  finishing := h.finishing

theorem linkSound_frameEnd (h : LinkSound s) (hpin : s.pin = .high) : LinkSound s.frameEnd := by
  have hready := h.ready
  rw [hpin] at hready
  have hlow : s.link.tx ≠ .idle → s.link.rxLow = false := fun htx => by
    cases hl : s.link.rxLow with
    | false => rfl
    | true => exact absurd (h.silent (.inr hl)) htx
  unfold State.frameEnd
  split
  · exact h
  next htx => exact linkSound_startNext hready hpin (hlow (by simp [htx]))
  next htx =>
    have hlow := hlow (by simp [htx])
    split
    next x _ =>
      cases x with
      | linkSet code => exact linkSound_startNext (ready_changeRate hready code) hpin hlow
      | restart => exact linkSound_startNext (.fresh _ _) rfl rfl
    next hheld => exact linkSound_startNext (ready_popReply hready hpin htx hheld) hpin hlow

theorem linkSound_answers (h : LinkSound s) (ha : Answers s t) : LinkSound t := by
  cases ha with
  | idle => exact h
  | request f u kind tag body hcan hu =>
    obtain ⟨hpin, x, hlink⟩ := hu.link_pin
    obtain ⟨-, -, hroom, -⟩ := hcan
    refine linkSound_arbitrate ?_
    have hready := h.ready.queueReply hroom x { kind := kind, tag := tag, body := body }
    have hl : (u.queueReply kind tag body).link
        = { s.link with intake := s.link.intake.tail, hold := x, replies := s.link.replies ++ [{ kind := kind, tag := tag, body := body }] } := by
      rw [State.queueReply, hlink]
      rfl
    have hp : (u.queueReply kind tag body).pin = s.pin := hpin
    rw [hl, hp]
    exact hready
  | event u hu => exact linkSound_arbitrate (hu.ready h.ready)
  | frameEnd hpin => exact linkSound_frameEnd h hpin

/-- Settles O56: what the work of an event leaves of the link is ready, and the transmitter's choice settles it. -/
theorem stepKeepsLinkSettled : Obligations.StepKeepsLinkSettled := fun _ _ hs hstep =>
  step_keeps LinkSound (fun _ _ h => ⟨h.intake, h.replies, h.sending, h.silent, h.idle, h.held, h.finishing⟩)
    (fun _ _ => linkSound_answers) hs hstep

end

end Sys2Proof.Machine
end

section
/-! SUPPORT. The transmit queues and the lane engines: a lane at rest, a lane with another head, a queue whose packets change (R120, R124
to R136); O57. -/

namespace Sys2Proof.Machine

/-- The packet has not started. -/
def Packet.Waiting (p : Packet) : Prop := p.state = .filling ∨ p.state = .ready

section
variable {p q : Packet} {x y : Lane} {rest : List Packet}

theorem Packet.Waiting.not_sending (h : p.Waiting) : p.state ≠ .sending := by
  obtain h | h := h <;> simp [h]

theorem Packet.Waiting.not_aborting (h : p.Waiting) : p.state ≠ .aborting := by
  obtain h | h := h <;> simp [h]

theorem waiting_of_not_started (h : ¬p.started = true) : p.Waiting := by
  unfold Packet.started at h
  split at h
  · exact absurd rfl h
  · exact absurd rfl h
  next hs => exact .inl hs
  next hs => exact .inr hs

/-! ## Packets -/

/-- A packet that has started, with its position inside its line length. -/
theorem Packet.Sound.started_of (received : p.body.length ≤ p.declared) (hs : p.state = .sending ∨ p.state = .aborting)
    (position : p.position ≤ p.declared + 6) (reason : p.abortReason.isSome ↔ p.state = .aborting) : p.Sound where
  received := received
  filling := fun h => by obtain hs | hs := hs <;> simp [hs] at h
  ready := fun h => by obtain hs | hs := hs <;> simp [hs] at h
  notStarted := fun h => by obtain hs | hs := hs <;> simp [hs] at h
  position := position
  reason := reason

theorem Packet.Sound.moved (h : p.Sound) (hs : p.state = .sending ∨ p.state = .aborting) (hpos : p.position < p.declared + 6) :
    ({ p with position := p.position + 1 } : Packet).Sound :=
  .started_of h.received hs hpos h.reason

theorem Packet.Sound.started (h : p.Sound) (cut : Bool) (he : p.eligible cut = true) :
    ({ p with state := .sending, position := 0 } : Packet).Sound := by
  refine .started_of h.received (.inl rfl) (Nat.zero_le _) ?_
  have hwait : p.state ≠ .aborting := fun hs => by simp [Packet.eligible, hs] at he
  simpa [hwait] using h.reason

theorem Packet.Sound.abort (h : p.Sound) (reason : PacketReason) : (p.abort reason).Sound :=
  .started_of h.received (.inr rfl) h.position ⟨fun _ => rfl, fun _ => rfl⟩

/-- A segment leaves a waiting packet waiting, and a SENDING packet SENDING (R123). -/
theorem Packet.Sound.add (h : p.Sound) {segment : List Octet}
    (hs : p.state = .filling ∨ (p.state = .sending ∧ p.body.length ≠ p.declared))
    (hfit : p.body.length + segment.length ≤ p.declared) :
    (p.add segment).Sound ∧ ((p.add segment).state = p.state ∨ p.Waiting ∧ (p.add segment).Waiting) := by
  have hlen : (p.body ++ segment).length = p.body.length + segment.length := List.length_append
  have hbody : (p.add segment).body.length ≤ p.declared := hlen ▸ hfit
  obtain hs | ⟨hs, -⟩ := hs
  · have hreason : p.abortReason.isSome = false := by simpa [hs] using h.reason
    have hpos := h.notStarted (.inl hs)
    by_cases hwhole : (p.body ++ segment).length = p.declared
    · have hstate : (p.add segment).state = .ready := if_pos ⟨hs, hwhole⟩
      refine ⟨⟨hbody, ?_, fun _ => hwhole, fun _ => hpos, h.position, ?_⟩, .inr ⟨.inl hs, .inr hstate⟩⟩
      · simp [hstate]
      · rw [hstate]
        simpa [Packet.add] using hreason
    · have hstate : (p.add segment).state = p.state := if_neg fun hc => hwhole hc.2
      refine ⟨⟨hbody, fun _ => ?_, ?_, fun _ => hpos, h.position, ?_⟩, .inl hstate⟩
      · exact Nat.lt_of_le_of_ne hbody hwhole
      · simp [hstate, hs]
      · rw [hstate, hs]
        simpa [Packet.add] using hreason
  · have hstate : (p.add segment).state = p.state := if_neg fun hc => by simp [hs] at hc
    refine ⟨.started_of hbody (.inl (hstate.trans hs)) h.position ?_, .inl hstate⟩
    rw [hstate]
    exact h.reason

/-! ## Lanes -/

theorem Lane.Sound.fresh : Lane.Sound .fresh where
  depth := Nat.zero_le 16
  packets := fun _ hp => absurd hp List.not_mem_nil
  behind := fun _ hp => absurd hp List.not_mem_nil
  sending := by simp [Lane.fresh]
  aborting := by simp [Lane.fresh]
  atRest := fun _ => rfl
  gap := Nat.zero_le 2

/-- An engine at rest over a queue of which nothing has started. -/
theorem Lane.Sound.resting (h : x.Sound) (hq : y.queue.Sublist x.queue) (hwait : ∀ p ∈ y.queue, p.Waiting)
    (he : y.engine = .idle ∨ y.engine = .gap) (ha : y.activeSet = []) (hg : y.gapCount ≤ 2) : y.Sound where
  depth := hq.length_le.trans h.depth
  packets := fun p hp => h.packets p (hq.subset hp)
  behind := fun p hp => hwait p (List.mem_of_mem_tail hp)
  sending := by
    refine ⟨fun hs => by obtain he | he := he <;> simp [he] at hs, ?_⟩
    rintro ⟨p, hp, hs⟩
    exact absurd hs (hwait p (List.mem_of_mem_head? hp)).not_sending
  aborting := by
    refine ⟨fun hs => by obtain he | he := he <;> simp [he] at hs, ?_⟩
    rintro ⟨p, hp, hs⟩
    exact absurd hs (hwait p (List.mem_of_mem_head? hp)).not_aborting
  atRest := fun _ => ha
  gap := hg

theorem Lane.Sound.waits (h : x.Sound) (hq : x.queue = p :: rest) : ∀ q ∈ rest, q.Waiting := fun q hm =>
  h.behind q (by rw [hq]; exact hm)

/-- An engine and its head agree. -/
theorem Lane.Sound.of_head (h : x.Sound) (hx : x.queue = p :: rest) (hy : y.queue = q :: rest) (hp : q.Sound)
    (hs : y.engine = .sending ↔ q.state = .sending) (ha : y.engine = .aborting ↔ q.state = .aborting)
    (atRest : y.engine = .idle ∨ y.engine = .gap → y.activeSet = []) (hg : y.gapCount ≤ 2) : y.Sound where
  depth := by
    have := h.depth
    rw [hx] at this
    rw [hy]
    exact this
  packets := fun r hr => by
    rw [hy] at hr
    obtain rfl | hr := List.mem_cons.mp hr
    · exact hp
    · exact h.packets r (by rw [hx]; exact List.mem_cons_of_mem p hr)
  behind := by
    rw [hy]
    exact h.waits hx
  sending := by simpa [hy] using hs
  aborting := by simpa [hy] using ha
  atRest := atRest
  gap := hg

theorem Lane.Sound.head_sending (h : x.Sound) (hq : x.queue = p :: rest) : x.engine = .sending ↔ p.state = .sending := by
  simpa [hq] using h.sending

theorem Lane.Sound.head_aborting (h : x.Sound) (hq : x.queue = p :: rest) : x.engine = .aborting ↔ p.state = .aborting := by
  simpa [hq] using h.aborting

theorem Lane.Sound.head (h : x.Sound) (hq : x.queue = p :: rest) : p.Sound := h.packets p (by rw [hq]; exact List.mem_cons_self)

/-- Packets change one by one, each staying on its side of the start. -/
theorem Lane.Sound.map_queue (h : x.Sound) (f : Packet → Packet)
    (hf : ∀ p ∈ x.queue, (f p).Sound ∧ ((f p).state = p.state ∨ p.Waiting ∧ (f p).Waiting)) :
    ({ x with queue := x.queue.map f } : Lane).Sound := by
  have hsame : ∀ p ∈ x.queue, ((f p).state = .sending ↔ p.state = .sending)
      ∧ ((f p).state = .aborting ↔ p.state = .aborting) := fun p hp => by
    obtain he | ⟨hp, hfp⟩ := (hf p hp).2
    · simp [he]
    · simp [hp.not_sending, hp.not_aborting, hfp.not_sending, hfp.not_aborting]
  have hhead : ∀ k, (k = PacketState.sending ∨ k = .aborting) →
      ((∃ p, (x.queue.map f).head? = some p ∧ p.state = k) ↔ ∃ p, x.queue.head? = some p ∧ p.state = k) := by
    intro k hk
    cases hq : x.queue with
    | nil => simp
    | cons p rest =>
      have := hsame p (by rw [hq]; exact List.mem_cons_self)
      obtain rfl | rfl := hk
      · simpa using this.1
      · simpa using this.2
  refine ⟨by simpa using h.depth, ?_, ?_, h.sending.trans (hhead _ (.inl rfl)).symm, h.aborting.trans (hhead _ (.inr rfl)).symm,
    h.atRest, h.gap⟩
  · intro q hq
    obtain ⟨p, hp, rfl⟩ := List.mem_map.mp hq
    exact (hf p hp).1
  · intro q hq
    rw [← List.map_tail] at hq
    obtain ⟨p, hp, rfl⟩ := List.mem_map.mp hq
    have hw := h.behind p hp
    obtain he | ⟨-, he⟩ := (hf p (List.mem_of_mem_tail hp)).2
    · exact he ▸ hw
    · exact he

/-- A waiting packet joins the end (R122). -/
theorem Lane.Sound.append (h : x.Sound) (hp : p.Sound) (hw : p.Waiting) (hroom : x.queue.length < 16) :
    ({ x with queue := x.queue ++ [p] } : Lane).Sound := by
  have hhead : ∀ k, (k = PacketState.sending ∨ k = .aborting) →
      ((∃ q, (x.queue ++ [p]).head? = some q ∧ q.state = k) ↔ ∃ q, x.queue.head? = some q ∧ q.state = k) := by
    intro k hk
    cases hq : x.queue with
    | nil =>
      obtain rfl | rfl := hk
      · simpa using hw.not_sending
      · simpa using hw.not_aborting
    | cons => simp
  refine ⟨by simpa using hroom, ?_, ?_, h.sending.trans (hhead _ (.inl rfl)).symm, h.aborting.trans (hhead _ (.inr rfl)).symm,
    h.atRest, h.gap⟩
  · intro q hq
    obtain hq | hq := List.mem_append.mp hq
    · exact h.packets q hq
    · exact List.mem_singleton.mp hq ▸ hp
  · intro q hq
    cases hx : x.queue with
    | nil => simp [hx] at hq
    | cons r rest =>
      rw [hx, List.cons_append, List.tail_cons] at hq
      obtain hq | hq := List.mem_append.mp hq
      · exact h.waits hx q hq
      · exact List.mem_singleton.mp hq ▸ hw

/-- A queue of which nothing has started, under an engine at rest. -/
theorem Lane.Sound.all_wait (h : x.Sound) (he : x.engine = .idle ∨ x.engine = .gap) : ∀ p ∈ x.queue, p.Waiting := by
  intro p hp
  cases hq : x.queue with
  | nil => simp [hq] at hp
  | cons q rest =>
    have hhead : q.Waiting := waiting_of_not_started fun hst => by
      unfold Packet.started at hst
      split at hst
      next hs => obtain he | he := he <;> simp [(h.head_sending hq).mpr hs] at he
      next hs => obtain he | he := he <;> simp [(h.head_aborting hq).mpr hs] at he
      · cases hst
      · cases hst
    rw [hq] at hp
    obtain rfl | hp := List.mem_cons.mp hp
    · exact hhead
    · exact h.waits hq p hp

theorem Lane.Sound.tryStart (h : x.Sound) (held : List Nat) : (x.tryStart held).Sound := by
  unfold Lane.tryStart
  split
  next p rest hq =>
    split
    next hstart =>
      obtain ⟨he, -, hel⟩ := hstart
      exact h.of_head hq rfl ((h.head hq).started _ hel) (by simp) (by simp) (by simp) h.gap
    · exact h
  · exact h

theorem Lane.Sound.atCycleStart (h : x.Sound) (held : List Nat) : (x.atCycleStart held).Sound := by
  unfold Lane.atCycleStart
  split
  next hover =>
    have hgap : x.engine = .gap := (of_decide_eq_true hover).1
    refine Lane.Sound.tryStart ?_ held
    exact h.resting (List.Sublist.refl _) (h.all_wait (.inr hgap)) (.inl rfl) rfl (Nat.zero_le 2)
  · exact h.tryStart held

end

/-! ## Every lane -/

section
variable {s t : State}

theorem LanesSound.of_lanes (h : LanesSound s) (ht : t.lanes = s.lanes) : LanesSound t := fun x hx => h x (ht ▸ hx)

theorem LanesSound.lane (h : LanesSound s) (l : Nat) : (s.lane l).Sound := by
  unfold State.lane
  cases hl : s.lanes[l]? with
  | none => exact .fresh
  | some x => exact h x (List.mem_of_getElem? hl)

theorem LanesSound.of_modify (h : LanesSound s) {l : Nat} {f : Lane → Lane} (ht : t.lanes = s.lanes.modify l f)
    (hf : (f (s.lane l)).Sound) : LanesSound t := by
  intro x hx
  obtain ⟨i, hi⟩ := List.mem_iff_getElem?.mp hx
  rw [ht, List.getElem?_modify] at hi
  obtain ⟨y, hy, rfl⟩ := Option.map_eq_some_iff.mp hi
  split
  next hl =>
    have : s.lane l = y := by simp [State.lane, hl, hy]
    exact this ▸ hf
  · exact h y (List.mem_of_getElem? hy)

theorem LanesSound.modLane (h : LanesSound s) (l : Nat) (f : Lane → Lane) (hf : (f (s.lane l)).Sound) :
    LanesSound (s.modLane l f) :=
  h.of_modify rfl hf

/-- A packet finishes and the engine is changed with it: the lane changes once. -/
theorem finishThen_lanes (l : Nat) (p : Packet) (o : PacketOutcome) (r : Option PacketReason) (f : Lane → Lane) :
    ((s.finishPacket l p o r).modLane l f).lanes
      = s.lanes.modify l fun x => f { x with queue := x.queue.filter fun q => q.handle != p.handle } := by
  rw [State.modLane_lanes, finishPacket_lanes, List.modify_modify_eq]
  rfl

/-- With the head gone, what is left of the queue waits. -/
theorem filter_head_waits {x : Lane} {p q : Packet} {rest : List Packet} (h : x.Sound) (hq : x.queue = q :: rest)
    (hp : p.handle = q.handle) : ∀ r ∈ x.queue.filter (fun r => r.handle != p.handle), r.Waiting := by
  intro r hr
  obtain ⟨hr, hne⟩ := List.mem_filter.mp hr
  rw [hq] at hr
  obtain rfl | hr := List.mem_cons.mp hr
  · simp [hp] at hne
  · exact h.waits hq r hr

/-- The head finishes and the engine comes to rest (R127, R130, R134, R135). -/
theorem LanesSound.finishHead (h : LanesSound s) {l : Nat} {p q : Packet} {rest : List Packet} (o : PacketOutcome)
    (r : Option PacketReason) {f : Lane → Lane} (hq : (s.lane l).queue = q :: rest) (hp : p.handle = q.handle)
    (hqueue : ∀ x, (f x).queue = x.queue) (he : ∀ x, (f x).engine = .idle ∨ (f x).engine = .gap)
    (ha : ∀ x, (f x).activeSet = []) (hg : ∀ x, (f x).gapCount ≤ 2) :
    LanesSound ((s.finishPacket l p o r).modLane l f) := by
  refine h.of_modify (finishThen_lanes l p o r f) ?_
  refine (h.lane l).resting ?_ ?_ (he _) (ha _) (hg _)
  · rw [hqueue]
    exact List.filter_sublist
  · rw [hqueue]
    exact filter_head_waits (h.lane l) hq hp

theorem LanesSound.laneSlotLost (h : LanesSound s) (l slot : Nat) : LanesSound (s.laneSlotLost l slot) := by
  unfold State.laneSlotLost
  dsimp only
  split
  next p rest hq =>
    split
    · exact h.finishHead _ _ hq rfl (fun _ => rfl) (fun _ => .inr rfl) (fun _ => rfl) (fun _ => Nat.zero_le 2)
    · exact h
  · exact h

theorem LanesSound.stopLane (h : LanesSound s) (l : Nat) : LanesSound (s.stopLane l) := by
  have hrest : (∀ p ∈ (s.lane l).queue, p.Waiting) →
      LanesSound (s.modLane l fun y => { y.rest .idle with runningCheck := crcPreset }) := fun hwait =>
    h.modLane l _ ((h.lane l).resting (List.Sublist.refl _) hwait (.inl rfl) rfl (Nat.zero_le 2))
  unfold State.stopLane
  dsimp only
  split
  next p rest hq =>
    split
    · exact h.finishHead _ _ hq rfl (fun _ => rfl) (fun _ => .inl rfl) (fun _ => rfl) (fun _ => Nat.zero_le 2)
    next hst =>
      refine hrest fun q hm => ?_
      rw [hq] at hm
      obtain rfl | hm := List.mem_cons.mp hm
      · exact waiting_of_not_started hst
      · exact (h.lane l).waits hq q hm
  next hq => exact hrest fun q hm => by simp [hq] at hm

theorem LanesSound.stopLanes (h : LanesSound s) : LanesSound s.stopLanes :=
  List.foldlRecOn _ _ h fun _ h l _ => h.stopLane l

theorem LanesSound.lineDown (h : LanesSound s) : LanesSound s.lineDown := by
  have hdown : LanesSound s.stationsDown.stopNotes.windowDown := h.of_lanes (by simp)
  exact hdown.stopLanes.of_lanes (by unfold State.lineDown; simp)

theorem LanesSound.runningStart (h : LanesSound s) : LanesSound s.runningStart := by
  obtain ⟨-, -, -, -, hlanes⟩ := runningStart_parts s
  intro x hx
  obtain ⟨i, hi, rfl⟩ := List.mem_mapIdx.mp (hlanes ▸ hx)
  exact (h _ (List.getElem_mem hi)).atCycleStart _

theorem LanesSound.startCycle (h : LanesSound s) : LanesSound s.startCycle := by
  unfold State.startCycle
  repeat' split
  · exact LanesSound.runningStart (h.of_lanes (by simp))
  · exact LanesSound.runningStart (h.of_lanes (by simp))
  · exact h.of_lanes rfl

theorem LanesSound.stopLine (h : LanesSound s) : LanesSound s.stopLine := by
  unfold State.stopLine
  dsimp only
  split
  · exact LanesSound.lineDown (h.of_lanes rfl)
  · exact h.of_lanes rfl

theorem LanesSound.faultLine (h : LanesSound s) : LanesSound s.faultLine := by
  unfold State.faultLine
  dsimp only
  split
  · exact LanesSound.lineDown (h.of_lanes rfl)
  · exact h.of_lanes rfl

theorem LanesSound.endCycle (h : LanesSound s) (good : Bool) : LanesSound (s.endCycle good) := by
  unfold State.endCycle
  dsimp only
  repeat' split
  · exact h.of_lanes rfl
  · exact LanesSound.faultLine (h.of_lanes rfl)
  · exact h.of_lanes rfl

/-! ### A lane's turn (R124, R126, R128 to R130) -/

/-- One octet of the head goes out. -/
theorem LanesSound.sendOctet (h : LanesSound s) {l : Nat} {p : Packet} {rest : List Packet} (o : Octet) (checked : Bool)
    (hq : (s.lane l).queue = p :: rest) (hs : p.state = .sending ∨ p.state = .aborting)
    (hpos : p.position < p.declared + 6) : LanesSound (s.sendOctet l p o checked).2 := by
  have hx := h.lane l
  refine h.modLane l _ (hx.of_head (q := { p with position := p.position + 1 }) hq ?_ ((hx.head hq).moved hs hpos)
    ?_ ?_ hx.atRest hx.gap)
  · simp [Lane.withHead, hq]
  · exact (hx.head_sending hq :)
  · exact (hx.head_aborting hq :)

theorem LanesSound.endPacket (h : LanesSound s) {l : Nat} {p : Packet} {rest : List Packet} (o : Octet)
    (outcome : PacketOutcome) (reason : Option PacketReason) (hq : (s.lane l).queue = p :: rest) :
    LanesSound (s.endPacket l p o outcome reason).2 :=
  h.finishHead (p := { p with position := p.position + 1 }) _ _ hq rfl (fun _ => rfl) (fun _ => .inr rfl) (fun _ => rfl)
    (fun _ => Nat.zero_le 2)

theorem LanesSound.abortTurn (h : LanesSound s) {l : Nat} {p : Packet} {rest : List Packet}
    (hq : (s.lane l).queue = p :: rest) (hs : p.state = .aborting) : LanesSound (s.abortTurn l p).2 := by
  unfold State.abortTurn
  dsimp only
  repeat' split
  · exact h.sendOctet _ _ hq (.inr hs) (by omega)
  · exact h.sendOctet _ _ hq (.inr hs) (by omega)
  · exact h.sendOctet _ _ hq (.inr hs) (by omega)
  · exact h.endPacket _ _ _ hq

theorem LanesSound.sendTurn (h : LanesSound s) {l : Nat} {p : Packet} {rest : List Packet}
    (hq : (s.lane l).queue = p :: rest) (hs : p.state = .sending) : LanesSound (s.sendTurn l p).2 := by
  have hx := h.lane l
  unfold State.sendTurn
  dsimp only
  repeat' split
  · exact h.sendOctet _ _ hq (.inl hs) (by omega)
  · exact h.sendOctet _ _ hq (.inl hs) (by omega)
  · refine LanesSound.abortTurn ?_ (queue_withHead _ hq) rfl
    refine h.modLane l _ (hx.of_head (q := p.abort .underrun) hq ?_ ((hx.head hq).abort _) ?_ ?_ ?_ hx.gap)
    · simp [Lane.withHead, hq]
    · simp [Packet.abort]
    · simp [Packet.abort]
    · simp
  · exact h.sendOctet _ _ hq (.inl hs) (by omega)
  · exact h.endPacket _ _ _ hq

theorem LanesSound.laneTurn (h : LanesSound s) (l slot : Nat) : LanesSound (s.laneTurn l slot).2 := by
  have hx := h.lane l
  unfold State.laneTurn
  dsimp only
  split
  next p rest he hq =>
    split
    · exact h.sendTurn hq ((hx.head_sending hq).mp he)
    · exact h
  next p rest he hq =>
    split
    · exact h.abortTurn hq ((hx.head_aborting hq).mp he)
    · exact h
  next he =>
    refine h.modLane l _ (hx.resting (List.Sublist.refl _) (hx.all_wait (.inr he)) (.inr he) (hx.atRest (.inr he)) ?_)
    exact Nat.min_le_left _ _
  all_goals exact h

/-! ### Requests -/

theorem LanesSound.takeLoss (h : LanesSound s) (o : Owner) (prec : Nat) (x : Loss) : LanesSound (State.takeLoss o prec s x) := by
  have htell : ∀ (u : State) (l : Nat) (r : SlotRef), LanesSound u → LanesSound (u.tellLane l r) := fun u l r h => by
    unfold State.tellLane
    repeat' split
    · exact h.laneSlotLost _ _
    · exact h.of_lanes (by simp)
    · exact h
    · exact h
  unfold State.takeLoss
  dsimp only
  repeat' split
  · exact htell _ _ _ (h.of_lanes rfl)
  · exact htell _ _ _ (h.of_lanes rfl)
  · exact h
  · exact h.of_lanes (by simp)
  · exact h.of_lanes (by simp)

theorem LanesSound.applyClaim (h : LanesSound s) (o : Owner) (prec : Nat) (rs : List SlotRef) :
    LanesSound (s.applyClaim o prec rs) := by
  refine List.foldlRecOn (motive := LanesSound) _ _ ?_ fun _ h x _ => h.takeLoss o prec x
  exact List.foldlRecOn (motive := LanesSound) rs _ h fun _ h _ _ => h.of_lanes (by simp)

theorem LanesSound.setPrecedence (h : LanesSound s) (l prec : Nat) (cut : Bool) : LanesSound (s.setPrecedence l prec cut) := by
  have hx := h.lane l
  refine h.of_modify rfl ?_
  exact ⟨hx.depth, hx.packets, hx.behind, hx.sending, hx.aborting, hx.atRest, hx.gap⟩

theorem LanesSound.applyLaneSet (h : LanesSound s) (l prec : Nat) (cut : Bool) (down up : List Nat) :
    LanesSound (s.applyLaneSet l prec cut down up) := by
  have hfree : ∀ (u : State) (o : Owner) (rs : List SlotRef), LanesSound u → LanesSound (u.freeSlots o rs) :=
    fun _ _ _ h => h.of_lanes (by simp)
  have hdrop : ∀ (u : State) (p : ReclaimEntry → Bool), LanesSound u → LanesSound (u.dropReclaim p) := fun _ _ h => h
  exact hfree _ _ _ (LanesSound.applyClaim (hdrop _ _ (h.setPrecedence l prec cut)) _ _ _)

theorem LanesSound.openCircuit (h : LanesSound s) (n : Nat) (f : CircuitOpenFields) : LanesSound (s.openCircuit n f) := by
  have hset : LanesSound (s.setCircuit n (some (s.newCircuit f))) := h
  exact hset.applyClaim _ _ _

theorem resetPackets_lanes (l : Nat) (ps : List Packet) :
    (ps.foldl (State.resetPacket l) s).lanes
      = s.lanes.modify l fun x => { x with queue := x.queue.filter fun q => decide (q.handle ∉ ps.map (·.handle)) } := by
  induction ps generalizing s with
  | nil =>
    refine (List.ext_getElem? fun i => ?_).symm
    simp only [List.foldl_nil, List.getElem?_modify]
    cases s.lanes[i]? <;> simp
  | cons p ps ih =>
    rw [List.foldl_cons, ih, State.resetPacket, finishPacket_lanes, List.modify_modify_eq]
    refine congrArg (s.lanes.modify l) (funext fun x => ?_)
    simp only [Function.comp, List.filter_filter]
    congr 1
    refine List.filter_congr fun q _ => ?_
    simp [Bool.and_comm]
    rfl

theorem LanesSound.resetLane (h : LanesSound s) (l : Nat) : LanesSound (s.resetLane l) := by
  have hlanes : (s.resetLane l).lanes
      = s.lanes.modify l fun x =>
        Lane.rest { x with queue := x.queue.filter fun q => decide (q.handle ∉ (s.lane l).queue.map (·.handle)) } .idle := by
    rw [State.resetLane, State.modLane_lanes, resetPackets_lanes, List.modify_modify_eq]
    rfl
  refine h.of_modify hlanes ((h.lane l).resting List.filter_sublist ?_ (.inl rfl) rfl (Nat.zero_le 2))
  intro q hq
  obtain ⟨hmem, hgone⟩ := List.mem_filter.mp hq
  exact absurd (List.mem_map.mpr ⟨q, hmem, rfl⟩) (of_decide_eq_true hgone)

/-- The handle of a packet names no other packet of its lane (R121). -/
theorem eq_of_handle (hlive : LiveHandles s) {l : Nat} {p q : Packet} (hp : p ∈ (s.lane l).queue) (hq : q ∈ (s.lane l).queue)
    (he : q.handle = p.handle) : q = p := by
  refine List.inj_on_of_nodup_map (f := fun p : Packet => p.handle) ?_ hq hp he
  simpa [Lane.keys, Function.comp_def] using keys_nodup hlive l

theorem LanesSound.addSegment (h : LanesSound s) (hlive : LiveHandles s) {l : Nat} {p : Packet} {segment : List Octet}
    (hp : p ∈ (s.lane l).queue) (hs : p.state = .filling ∨ (p.state = .sending ∧ p.body.length ≠ p.declared))
    (hfit : p.body.length + segment.length ≤ p.declared) :
    LanesSound (s.modPacket l p.handle fun q => q.add segment) := by
  refine h.modLane l _ ((h.lane l).map_queue _ fun q hq => ?_)
  split
  next he =>
    obtain rfl := eq_of_handle hlive hp hq he
    exact Packet.Sound.add ((h.lane l).packets q hq) hs hfit
  · exact ⟨(h.lane l).packets q hq, .inl rfl⟩

/-- A packet that waits leaves the queue (R131). -/
theorem LanesSound.cancelWaiting (h : LanesSound s) (hlive : LiveHandles s) {l : Nat} {p : Packet} (hp : p ∈ (s.lane l).queue)
    (hw : p.Waiting) (o : PacketOutcome) (r : Option PacketReason) : LanesSound (s.finishPacket l p o r) := by
  refine h.of_modify (finishPacket_lanes l p o r) ?_
  have hx := h.lane l
  cases hq : (s.lane l).queue with
  | nil => simp [hq] at hp
  | cons q rest =>
    by_cases he : q.handle = p.handle
    · obtain rfl := eq_of_handle hlive hp (by rw [hq]; exact List.mem_cons_self) he
      have hengine : (s.lane l).engine = .idle ∨ (s.lane l).engine = .gap := by
        cases hs : (s.lane l).engine with
        | idle => exact .inl rfl
        | gap => exact .inr rfl
        | sending => exact absurd ((hx.head_sending hq).mp hs) hw.not_sending
        | aborting => exact absurd ((hx.head_aborting hq).mp hs) hw.not_aborting
      refine hx.resting (hq ▸ List.filter_sublist) (fun r hr => hx.all_wait hengine r ?_) hengine
        (hx.atRest hengine) hx.gap
      rw [hq]
      exact (List.mem_filter.mp hr).1
    · have hfilter : (s.lane l).queue.filter (fun r => r.handle != p.handle)
          = q :: rest.filter fun r => r.handle != p.handle := by
        rw [hq, List.filter_cons, if_pos (bne_iff_ne.mpr he)]
      have hsub : ({ s.lane l with queue := q :: rest.filter fun r => r.handle != p.handle } : Lane).Sound := by
        have hsublist : (q :: rest.filter fun r => r.handle != p.handle).Sublist (s.lane l).queue := by
          rw [hq]
          exact List.filter_sublist.cons_cons q
        exact ⟨hsublist.length_le.trans hx.depth, fun r hr => hx.packets r (hsublist.subset hr),
          fun r hr => hx.waits hq r (List.mem_of_mem_filter hr), by simpa [hq] using hx.sending,
          by simpa [hq] using hx.aborting, hx.atRest, hx.gap⟩
      rw [hq] at hfilter
      rw [hfilter]
      exact hsub

theorem cancelSending_lanes (l : Nat) (p : Packet) :
    (s.cancelSending l p).lanes = s.lanes.modify l fun x =>
      { x with
        queue := x.queue.map fun q => if q.handle = p.handle then q.abort .cancel else q
        engine := .aborting } := by
  rw [State.cancelSending, State.modLane_lanes, State.modPacket, State.modLane_lanes, List.modify_modify_eq]
  rfl

theorem LanesSound.cancelSending (h : LanesSound s) (hlive : LiveHandles s) {l : Nat} {p : Packet}
    (hp : p ∈ (s.lane l).queue) (hs : p.state = .sending) : LanesSound (s.cancelSending l p) := by
  refine h.of_modify (cancelSending_lanes l p) ?_
  have hx := h.lane l
  cases hq : (s.lane l).queue with
  | nil => simp [hq] at hp
  | cons q rest =>
    have hpq : p = q := by
      rw [hq] at hp
      obtain rfl | hp := List.mem_cons.mp hp
      · rfl
      · exact absurd hs (Packet.Waiting.not_sending (hx.waits hq p hp))
    subst hpq
    have hnd : ((s.lane l).queue.map (·.handle)).Nodup := by
      simpa [Lane.keys, Function.comp_def] using keys_nodup hlive l
    rw [hq, List.map_cons, List.nodup_cons] at hnd
    have hrest : rest.map (fun q => if q.handle = p.handle then q.abort .cancel else q) = rest := by
      refine (List.map_congr_left fun r hr => if_neg fun he => hnd.1 ?_).trans (List.map_id rest)
      exact List.mem_map.mpr ⟨r, hr, he⟩
    refine hx.of_head (q := p.abort .cancel) hq ?_ ((hx.head hq).abort _) (by simp [Packet.abort]) (by simp [Packet.abort])
      (by simp) hx.gap
    simp [hrest]

theorem newPacket_sound (f : PacketSendFields) (hr : f.inRange = true) : (s.newPacket f).Sound ∧ (s.newPacket f).Waiting := by
  obtain ⟨-, -, -, -, hfit⟩ := of_decide_eq_true hr
  have hreason : (s.newPacket f).abortReason = none := rfl
  by_cases hwhole : f.segment.length = f.declared
  · have hstate : (s.newPacket f).state = .ready := if_pos hwhole
    exact ⟨⟨hfit, by simp [hstate], fun _ => hwhole, fun _ => rfl, Nat.zero_le _, by simp [hstate, hreason]⟩, .inr hstate⟩
  · have hstate : (s.newPacket f).state = .filling := if_neg hwhole
    exact ⟨⟨hfit, fun _ => Nat.lt_of_le_of_ne hfit hwhole, by simp [hstate], fun _ => rfl, Nat.zero_le _,
      by simp [hstate, hreason]⟩, .inl hstate⟩

theorem LanesSound.acceptPacket (h : LanesSound s) {f : PacketSendFields} (hr : f.inRange = true)
    (hl : s.packetLimit f.lane = none) : LanesSound (s.acceptPacket f) := by
  have hroom : (s.lane f.lane).queue.length < 16 := by
    unfold State.packetLimit at hl
    split_ifs at hl with h1 h2
    exact Nat.lt_of_not_le h1
  obtain ⟨hp, hw⟩ := newPacket_sound (s := s) f hr
  exact h.of_modify rfl ((h.lane f.lane).append hp hw hroom)

/-! ## Steps -/

theorem LanesSound.of_requestWork (h : LanesSound s) (hlive : LiveHandles s) (hw : RequestWork s t) : LanesSound t := by
  cases hw with
  | lineStop _ => exact h.stopLine
  | laneSet f cut _ _ _ => exact h.applyLaneSet _ _ _ _ _
  | circuitOpen n f _ _ _ _ => exact h.openCircuit n f
  | packetSend f hr hl _ => exact h.acceptPacket hr hl
  | packetAdd x l p segment hp hs hfit => exact h.addSegment hlive (mem_of_packet? hp).2.1 hs hfit
  | packetCancel x l p hp hs => exact h.cancelWaiting hlive (mem_of_packet? hp).2.1 hs _ _
  | packetAbort x l p hp hs => exact h.cancelSending hlive (mem_of_packet? hp).2.1 hs
  | laneReset l _ => exact h.resetLane l
  | unchanged => exact h
  | lineSet x => exact h.of_lanes rfl
  | noteSend a octets _ _ => exact h.of_lanes rfl
  | mailboxTake m r rest _ _ => exact h.of_lanes rfl
  | mailboxFlush m _ => exact h.of_lanes rfl
  | reportAck i _ => exact h.of_lanes rfl
  | reportResend => exact h.of_lanes rfl
  | hold x => exact h.of_lanes rfl
  | _ => exact h.of_lanes (by simp)

theorem LanesSound.of_lineWork (h : LanesSound s) (hw : LineWork s t) : LanesSound t := by
  cases hw with
  | cycleStart _ => exact h.startCycle
  | cycleEnd good _ => exact h.endCycle good
  | laneTurn l slot _ => exact (h.laneTurn l slot).of_lanes rfl
  | bid b _ =>
    unfold State.judgeBid
    repeat' split
    all_goals exact h.of_lanes (by simp)
  | _ => exact h.of_lanes (by simp)

theorem LanesSound.fresh (cause : RestartCause) (rate : Nat) : LanesSound (State.fresh cause rate) := fun x hx => by
  rw [show x = .fresh from List.eq_of_mem_replicate hx]
  exact .fresh

/-- Settles O57: the head and the engine start, abort and rest together, and what stands behind the head waits. -/
theorem stepKeepsLanesSound : Obligations.StepKeepsLanesSound := fun _ _ hlive hlanes hstep =>
  And.right <| step_keeps_blocks (fun s => LiveHandles s ∧ LanesSound s)
    (fun _ _ k h => ⟨h.1.of_blocksKept k, h.2.of_lanes k.lanes⟩) (fun _ _ => ⟨.fresh _ _, .fresh _ _⟩)
    (fun _ h => ⟨LiveHandles.working.release h.1, h.2.of_lanes rfl⟩)
    (fun _ _ h hw => ⟨LiveHandles.working.of_requestWork h.1 hw, h.2.of_requestWork h.1 hw⟩)
    (fun _ _ h hw => ⟨LiveHandles.working.of_lineWork h.1 hw, h.2.of_lineWork hw⟩) ⟨hlive, hlanes⟩ hstep

end

end Sys2Proof.Machine
end

section
/-! SUPPORT. The window unit against the stations and the line: what keeps `WindowSound` for want of touching it, and the four places
that touch it (a request for a window, a grant, a departure, the line going down); O58. -/

namespace Sys2Proof.Machine

/-- No station has left ONLINE, the Window Queue is the same, an open window has the owner it had, the line has not left RUNNING, and a
packet is in progress only under an open window, if it was. -/
structure WindowKept (s t : State) : Prop where
  online : ∀ b, s.isOnline b = true → t.isOnline b = true
  queue : t.window.queue = s.window.queue
  owner : ∀ w, t.window.window = some w → ∃ v, s.window.window = some v ∧ w.owner = v.owner
  running : t.line.state ≠ .running → s.line.state ≠ .running
  receiving : (s.rx.state ≠ .idle → s.window.window ≠ none) → t.rx.state ≠ .idle → t.window.window ≠ none

section
variable {s t u : State}

theorem WindowSound.of_kept (h : WindowSound s) (k : WindowKept s t) : WindowSound t where
  once := k.queue ▸ h.once
  online := fun a ha => k.online a (h.online a (k.queue ▸ ha))
  owner := fun w hw => by
    obtain ⟨v, hv, he⟩ := k.owner w hw
    obtain ⟨hon, hq⟩ := h.owner v hv
    rw [he, k.queue]
    exact ⟨k.online _ hon, hq⟩
  running := fun hr => by
    obtain ⟨hnone, hq⟩ := h.running (k.running hr)
    refine ⟨Option.eq_none_iff_forall_ne_some.mpr fun w hw => ?_, k.queue.trans hq⟩
    obtain ⟨v, hv, -⟩ := k.owner w hw
    rw [hnone] at hv
    cases hv
  receiving := k.receiving h.receiving

/-- Nothing is queued, open or being received. -/
theorem windowSound_of_quiet (window : t.window.window = none) (queue : t.window.queue = []) (rx : t.rx.state = .idle) :
    WindowSound t where
  once := queue ▸ List.nodup_nil
  online := fun a ha => by simp [queue] at ha
  owner := fun w hw => by simp [window] at hw
  running := fun _ => ⟨window, queue⟩
  receiving := fun hr => absurd rx hr

theorem isOnline_of_poll (h : t.poll = s.poll) (b : Nat) : t.isOnline b = s.isOnline b := by
  unfold State.isOnline
  rw [station_of_poll h]

theorem WindowKept.of_frame (poll : t.poll = s.poll) (window : t.window = s.window) (rx : t.rx = s.rx)
    (line : t.line.state = s.line.state) : WindowKept s t where
  online := fun b hb => (isOnline_of_poll poll b).trans hb
  queue := congrArg _ window
  owner := fun w hw => ⟨w, window ▸ hw, rfl⟩
  running := fun h => line ▸ h
  receiving := fun h => by
    rw [window, rx]
    exact h

theorem WindowKept.refl (s : State) : WindowKept s s := .of_frame rfl rfl rfl rfl

theorem WindowKept.trans (h : WindowKept s t) (k : WindowKept t u) : WindowKept s u where
  online := fun b hb => k.online b (h.online b hb)
  queue := k.queue.trans h.queue
  owner := fun w hw => by
    obtain ⟨v, hv, he⟩ := k.owner w hw
    obtain ⟨x, hx, hxe⟩ := h.owner v hv
    exact ⟨x, hx, he.trans hxe⟩
  running := fun hr => h.running (k.running hr)
  receiving := fun hr => k.receiving (h.receiving hr)

/-- The window unit apart, the stations may only gain ONLINE ones. -/
theorem WindowKept.of_online (online : ∀ b, s.isOnline b = true → t.isOnline b = true) (window : t.window = s.window)
    (rx : t.rx = s.rx) (line : t.line.state = s.line.state) : WindowKept s t :=
  have h : WindowKept s s := .refl s
  ⟨online, congrArg _ window, fun w hw => h.owner w (window ▸ hw), fun hr => line ▸ hr, fun hr => by rw [window, rx]; exact hr⟩

/-! ## Stations -/

/-- What a station reads after a change of one entry. -/
theorem station_modStation_cases (s : State) (a b : Nat) (f : Station → Station) :
    (s.modStation a f).station b = s.station b ∨ (b = a ∧ (s.modStation a f).station b = f (s.station b)) := by
  by_cases hb : b = a
  · subst hb
    cases b with
    | zero => exact .inl rfl
    | succ n =>
      simp only [State.station, State.modStation_succ_poll, List.getElem?_modify]
      cases s.poll.stations[n]? with
      | none => exact .inl rfl
      | some x => exact .inr (by simp)
  · exact .inl (s.station_modStation_ne a b f hb)

theorem WindowKept.modStation (h : WindowKept s t) (a : Nat) (f : Station → Station)
    (hf : (t.station a).state = .online → (f (t.station a)).state = .online) : WindowKept s (t.modStation a f) := by
  refine h.trans (.of_online (fun b hb => ?_) (by simp) (by simp) (by simp))
  have hb := of_decide_eq_true hb
  refine decide_eq_true ?_
  obtain he | ⟨rfl, he⟩ := station_modStation_cases t a b f
  · rw [he, hb]
  · rw [he]
    exact hf hb

/-- A change of one entry that leaves its state as it is. -/
theorem WindowKept.adjust (h : WindowKept s t) (a : Nat) (f : Station → Station)
    (hf : ∀ x, (f x).state = x.state := by exact fun _ => rfl) : WindowKept s (t.modStation a f) :=
  h.modStation a f fun ho => (hf _).trans ho

theorem WindowKept.report (h : WindowKept s t) (r : Report) : WindowKept s (t.report r) := h.trans (.of_frame rfl rfl rfl rfl)

theorem WindowKept.withLine (h : WindowKept s t) (e : LineEngine) (he : e.state = t.line.state) :
    WindowKept s { t with line := e } :=
  h.trans (.of_frame rfl rfl rfl he)

/-! ## Notes -/

theorem WindowKept.modNote (h : WindowKept s t) (x : Nat) (f : Note → Note) : WindowKept s (t.modNote x f) :=
  h.trans (.of_frame rfl rfl rfl rfl)

theorem WindowKept.callOut (h : WindowKept s t) (c : Option CallOut) :
    WindowKept s { t with notes := { t.notes with callOut := c } } :=
  h.trans (.of_frame rfl rfl rfl rfl)

theorem WindowKept.placed (h : WindowKept s t) (store : List Note) (e : Completion) :
    WindowKept s (State.complete { t with notes := { t.notes with store := store } } e) :=
  h.trans (.of_frame rfl rfl rfl rfl)

theorem WindowKept.finishNote (h : WindowKept s t) (n : Note) (o : NoteOutcome) : WindowKept s (t.finishNote n o) := by
  refine WindowKept.placed ?_ _ _
  split
  · exact h.adjust _ _
  · exact h

theorem WindowKept.finishNotes (h : WindowKept s t) (ns : List Note) (o : NoteOutcome) : WindowKept s (t.finishNotes ns o) :=
  List.foldlRecOn (motive := WindowKept s) ns _ h fun _ h n _ => h.finishNote n o

theorem WindowKept.callNote (h : WindowKept s t) (a : Nat) : WindowKept s (t.callNote a) := by
  unfold State.callNote
  dsimp only
  split
  · split
    · exact (WindowKept.modNote (h.callOut _) _ _).adjust _ _
    · exact h.callOut _
  · exact h.callOut _

theorem WindowKept.judgeNote (h : WindowKept s t) (a : Nat) (echo busy : Bool) : WindowKept s (t.judgeNote a echo busy) := by
  have hoctet : ∀ c n, WindowKept s (t.judgeOctet a c n echo busy) := fun c n => by
    unfold State.judgeOctet
    dsimp only
    repeat' split
    · exact (h.adjust _ _).finishNote _ _
    · exact h.adjust _ _
    · exact ((h.adjust _ _).modNote _ _).finishNote _ _
    · exact (h.adjust _ _).modNote _ _
    · exact (h.adjust _ _).finishNote _ _
    · exact h.adjust _ _
  unfold State.judgeNote
  repeat' split
  · exact h
  · exact h.adjust _ _
  · exact h.adjust _ _
  · exact hoctet _ _
  · exact h
  · exact hoctet _ _
  · exact h

/-! ## Windows -/

theorem endWindow_window (s : State) (e : WindowEnd) : (s.endWindow e).window.window = none := by
  unfold State.endWindow
  split
  next h => exact h
  · rfl

/-- At a window's end nothing is being received: the receiver has dealt with its packet, or discards it (R100). -/
theorem endWindow_rx (s : State) (e : WindowEnd) (he : e.byReceiver = true → s.rx.state = .idle)
    (h : s.rx.state ≠ .idle → s.window.window ≠ none) : (s.endWindow e).rx.state = .idle := by
  have hdiscard : ∀ u : State, u.discardPacket.rx.state = .idle := fun u => by
    rw [discardPacket_eq]
    show u.rx.discarded.state = .idle
    unfold Receiver.discarded
    split
    next hi => exact hi
    · rfl
  unfold State.endWindow
  split
  next hw => exact Classical.byContradiction fun hr => h hr hw
  · dsimp only
    split
    next hb =>
      split
      · exact he hb
      · exact he hb
    · exact hdiscard _

theorem WindowKept.endWindow (h : WindowKept s t) (e : WindowEnd) (he : e.byReceiver = true → t.rx.state = .idle) :
    WindowKept s (t.endWindow e) :=
  h.trans
    { online := fun b hb => (isOnline_of_poll (by simp) b).trans hb
      queue := by simp
      owner := fun w hw => by simp [endWindow_window] at hw
      running := fun hr => by simpa using hr
      receiving := fun h hr => absurd (endWindow_rx t e he h) hr }

theorem WindowKept.openWindow (s : State) {v w : Window} (hw : s.window.window = some w) (hv : v.owner = w.owner) :
    WindowKept s { s with window := { s.window with window := some v } } where
  online := fun _ hb => hb
  queue := rfl
  owner := fun x hx => ⟨w, hw, by cases hx; exact hv⟩
  running := id
  receiving := fun _ _ => by simp

theorem WindowKept.windowTick (s : State) : WindowKept s s.windowTick := by
  unfold State.windowTick
  split
  next w hw =>
    split
    · exact WindowKept.endWindow (.refl s) _ fun h => by cases h
    · exact .openWindow s hw rfl
  · exact .refl s

/-! ## The receiver -/

/-- While the window is open, the receiver may be in any state. -/
theorem WindowKept.receiver {w : Window} (hw : s.window.window = some w)
    (online : ∀ b, s.isOnline b = true → t.isOnline b = true) (window : t.window = s.window)
    (line : t.line.state = s.line.state) : WindowKept s t where
  online := online
  queue := congrArg _ window
  owner := fun w hw => ⟨w, window ▸ hw, rfl⟩
  running := fun hr => line ▸ hr
  receiving := fun _ _ => by simp [window, hw]

section
variable {w : Window} (hw : s.window.window = some w)
include hw

theorem WindowKept.rx (poll : t.poll = s.poll) (window : t.window = s.window) (line : t.line.state = s.line.state) :
    WindowKept s t :=
  .receiver hw (fun b hb => (isOnline_of_poll poll b).trans hb) window line

theorem WindowKept.withRecord (x : ReceiverState) (r : ReceiveRecord) : WindowKept s (s.withRecord x r) := .rx hw rfl rfl rfl

theorem WindowKept.drain (v : Window) (port : Octet) (fault : SortFault) (box : Option (Nat × MatchKind)) :
    WindowKept s (s.drain v port fault box) :=
  .rx hw (by simp) (by simp) (by simp)

theorem WindowKept.decideSort (v : Window) (port station : Octet) (length : Nat) :
    WindowKept s (s.decideSort v port station length) :=
  .rx hw (by simp) (by simp) (by simp)

omit hw in
/-- The packet in progress is over, and the window with it. -/
theorem WindowKept.complete (h : WindowKept s t) (e : WindowEnd) : WindowKept s (t.idleReceiver.endWindow e) := by
  refine WindowKept.endWindow (h.trans ?_) _ fun _ => rfl
  exact ⟨fun _ h => h, rfl, fun w hw => ⟨w, hw, rfl⟩, id, fun _ h => absurd rfl h⟩

theorem WindowKept.judgeHeader (v : Window) (port station : Octet) (length : Nat) :
    WindowKept s (s.judgeHeader v port station length) := by
  unfold State.judgeHeader
  dsimp only
  repeat' split
  · refine .complete ?_ _
    exact .rx hw rfl rfl rfl
  · refine .complete ?_ _
    exact .rx hw rfl rfl rfl
  · exact .decideSort hw _ _ _ _

theorem WindowKept.storePacket (port : Octet) (source length m : Nat) (kind : MatchKind) :
    WindowKept s (s.storePacket port source length m kind) := by
  unfold State.storePacket
  dsimp only
  refine .complete ?_ _
  split
  · exact .rx hw rfl rfl rfl
  · exact .rx hw rfl rfl rfl

theorem WindowKept.rejectPacket (v : Window) (received : BitVec 16) : WindowKept s (s.rejectPacket v received) := by
  unfold State.rejectPacket
  dsimp only
  refine .complete (.report (.adjust ?_ _ _) _) _
  exact .rx hw rfl rfl rfl

theorem WindowKept.takeHeader (v : Window) (o : Octet) : WindowKept s (s.takeHeader v o) := by
  have hrecord : ∀ x r, WindowKept s (s.withRecord x r) ∧ (s.withRecord x r).window.window = some w := fun x r =>
    ⟨.withRecord hw x r, hw⟩
  unfold State.takeHeader
  dsimp only
  repeat' split
  · exact (hrecord _ _).1
  · exact (hrecord _ _).1
  next st hi _ _ =>
    obtain ⟨hkept, hopen⟩ := hrecord .header { s.rx.record.takeChecked o with length := some (nat16 hi o) }
    exact hkept.trans (.judgeHeader hopen _ _ _ _)

theorem WindowKept.receive (v : Window) (o : Octet) : WindowKept s (s.receive v o) := by
  unfold State.receive
  dsimp only
  repeat' split
  · exact .refl s
  · exact .withRecord hw _ _
  · exact .takeHeader hw _ _
  · exact .withRecord hw _ _
  · exact .withRecord hw _ _
  · exact .withRecord hw _ _
  · exact .storePacket hw _ _ _ _ _
  · exact .rejectPacket hw _ _
  · exact .complete (.refl s) _
  · exact .withRecord hw _ _

theorem WindowKept.windowOctet (slot : Nat) (o : Octet) : WindowKept s (s.windowOctet w slot o) := by
  obtain ⟨v, hv, he | he⟩ := windowOctet_cases s w slot o
  all_goals
    have hopen : WindowKept s { s with window := { s.window with window := some v } } := .openWindow s hw hv
    have hreceive := hopen.trans (.receive (w := v) rfl v o)
    rw [he]
  · exact hreceive
  · exact hreceive.endWindow _ fun h => by cases h

end

/-! ## Requests for windows and grants (R92, R94, R96) -/

theorem WindowSound.askWindow (h : WindowSound s) (hrun : s.line.state = .running) (a : Nat) : WindowSound (s.askWindow a) := by
  unfold State.askWindow
  dsimp only
  split
  next hask =>
    obtain ⟨hon, hnot, howner⟩ := hask
    refine ⟨?_, fun b hb => ?_, fun w hw => ?_, fun hr => absurd hrun hr, h.receiving⟩
    · exact List.nodup_append_comm.mp (List.nodup_cons.mpr ⟨hnot, h.once⟩)
    · obtain hb | hb := List.mem_append.mp hb
      · exact h.online b hb
      · exact List.mem_singleton.mp hb ▸ hon
    · obtain ⟨hwon, hwq⟩ := h.owner w hw
      have hne : w.owner ≠ a := by
        rw [show s.window.window = some w from hw] at howner
        simpa using howner
      refine ⟨hwon, fun hm => ?_⟩
      obtain hm | hm := List.mem_append.mp hm
      · exact hwq hm
      · exact hne (List.mem_singleton.mp hm)
  · exact h

theorem WindowSound.grant (h : WindowSound s) : WindowSound s.grant := by
  unfold State.grant
  split
  · exact h
  next hnone =>
    split
    · exact h
    next a ha =>
      have hmem := List.mem_of_find?_eq_some ha
      refine WindowSound.of_kept ?_ (.adjust (.refl _) _ _)
      refine ⟨h.once.erase a, fun b hb => h.online b (List.mem_of_mem_erase hb), fun w hw => ?_, fun hr => ?_,
        fun _ => by simp⟩
      · cases hw
        exact ⟨h.online a hmem, h.once.not_mem_erase⟩
      · rw [(h.running hr).2] at hmem
        cases hmem

theorem WindowKept.changeCircuits (h : WindowKept s t) (p : Circuit → Bool) (new : CircuitState) (reason : CircuitReason) :
    WindowKept s (t.changeCircuits p new reason) :=
  h.trans (.of_frame (by simp) (by simp) (by simp) (by simp))

/-! ## Departures (R34, R95, R102) -/

theorem WindowSound.leaveWindow (h : WindowSound s) {a : Nat} (hon : ∀ b, b ≠ a → s.isOnline b = true → u.isOnline b = true)
    (window : u.window = s.window) (rx : u.rx = s.rx) (line : u.line.state = s.line.state) :
    WindowSound (u.leaveWindow a) := by
  obtain ⟨hqueue, hown, hother⟩ := leaveWindow_spec u a
  have hpoll : ∀ b, (u.leaveWindow a).isOnline b = u.isOnline b := isOnline_of_poll (by simp)
  have hline : (u.leaveWindow a).line = u.line := by simp
  have hmem : ∀ b, b ∈ (u.leaveWindow a).window.queue → b ∈ s.window.queue ∧ b ≠ a := fun b hb => by
    rw [hqueue, window] at hb
    exact ⟨List.mem_of_mem_filter hb, by simpa using (List.mem_filter.mp hb).2⟩
  have honline : ∀ b ∈ (u.leaveWindow a).window.queue, (u.leaveWindow a).isOnline b = true := fun b hb => by
    obtain ⟨hb, hne⟩ := hmem b hb
    exact (hpoll b).trans (hon b hne (h.online b hb))
  have honce : (u.leaveWindow a).window.queue.Nodup := by
    rw [hqueue, window]
    exact h.once.filter _
  have hquiet : s.window.queue = [] → (u.leaveWindow a).window.queue = [] := fun hq => by
    rw [hqueue, window, hq]
    rfl
  by_cases hwin : ∃ w, u.window.window = some w ∧ w.owner = a
  · obtain ⟨w, hw, hwa⟩ := hwin
    obtain ⟨hnone, hrx, -⟩ := hown w hw hwa
    refine ⟨honce, honline, fun v hv => by simp [hnone] at hv, fun hr => ⟨hnone, hquiet ?_⟩, fun hr => absurd ?_ hr⟩
    · exact (h.running (line ▸ hline ▸ hr)).2
    · rw [hrx]
      unfold Receiver.discarded
      split
      next hi => exact hi
      · rfl
  · have hne : ∀ w, u.window.window = some w → w.owner ≠ a := fun w hw he => hwin ⟨w, hw, he⟩
    obtain ⟨hsame, hrx, -⟩ := hother hne
    refine ⟨honce, honline, fun v hv => ?_, fun hr => ?_, ?_⟩
    · rw [hsame] at hv
      have hva := hne v hv
      rw [window] at hv
      obtain ⟨hvon, hvq⟩ := h.owner v hv
      exact ⟨(hpoll _).trans (hon _ hva hvon), fun hm => hvq (hmem _ hm).1⟩
    · obtain ⟨hnone, hq⟩ := h.running (line ▸ hline ▸ hr)
      exact ⟨by rw [hsame, window, hnone], hquiet hq⟩
    · rw [hsame, hrx, window, rx]
      exact h.receiving

/-- A station that is no longer ONLINE departs: `u` is the state in which only it has changed. -/
theorem WindowSound.leaveOnline (h : WindowSound s) {a : Nat}
    (hon : ∀ b, b ≠ a → s.isOnline b = true → u.isOnline b = true) (window : u.window = s.window) (rx : u.rx = s.rx)
    (line : u.line.state = s.line.state) (new : StationState) (reason : StationReason) :
    WindowSound (u.leaveOnline a new reason) := by
  have hleave : WindowSound ((u.reportStation a new .online reason).leaveWindow a) := h.leaveWindow hon window rx line
  unfold State.leaveOnline State.loseNotes State.sourceLeft
  exact hleave.of_kept (.changeCircuits (.finishNotes (.refl _) _ _) _ _ _)

/-- A change of one entry leaves the other stations ONLINE. -/
theorem online_modStation_ne (s : State) (a : Nat) (f : Station → Station) :
    ∀ b, b ≠ a → s.isOnline b = true → (s.modStation a f).isOnline b = true := fun b hb h => by
  unfold State.isOnline at h ⊢
  rwa [s.station_modStation_ne a b f hb]

theorem WindowSound.missOnline (h : WindowSound s) (a : Nat) (malformed : Bool) : WindowSound (s.missOnline a malformed) := by
  unfold State.missOnline
  dsimp only
  split
  · refine h.leaveOnline (fun b hb hon => ?_) (by simp) (by simp) (by simp) _ _
    exact online_modStation_ne _ a _ b hb (online_modStation_ne s a _ b hb hon)
  · exact h.of_kept (.adjust (.refl _) _ _)

/-- The station leaves for a state other than ONLINE, with the effects of R34 when it was ONLINE. -/
theorem WindowSound.departs (h : WindowSound s) (a : Nat) (f : Station → Station) (new : StationState)
    (reason : StationReason) : WindowSound ((s.modStation a f).departs a (s.isOnline a) new reason) := by
  unfold State.departs
  split
  · exact h.leaveOnline (online_modStation_ne s a f) (by simp) (by simp) (by simp) new reason
  next hoff =>
    refine h.of_kept (.finishNotes (.modStation (.refl _) _ _ fun hs => ?_) _ _)
    exact absurd (decide_eq_true hs) hoff

theorem WindowSound.withdraw (h : WindowSound s) (a : Nat) : WindowSound (s.withdraw a) :=
  (h.departs a _ _ _).of_kept (.adjust (.refl _) _ _)

theorem WindowSound.bar (h : WindowSound s) (a : Nat) : WindowSound (s.bar a) := h.departs a _ _ _

/-! ## Answers and bids -/

theorem WindowKept.doubleLook (h : WindowKept s t) (a code : Nat) : WindowKept s (t.doubleLook a code) := by
  unfold State.doubleLook
  dsimp only
  repeat' split
  · exact h
  · exact (h.adjust _ _).report _
  · exact h.adjust _ _

theorem WindowSound.becomeOnline (h : WindowSound s) (hrun : s.line.state = .running) (a code : Nat) (request : Bool) :
    WindowSound (s.becomeOnline a code request) := by
  have hjoined : WindowKept s
      ((((s.modStation a fun t => { t with state := .online, missCount := 0 }).reportStation a .online .joining
        .answered).sourceOnline a).doubleLook a code) :=
    .doubleLook (.changeCircuits (.report (.modStation (.refl s) _ _ fun _ => rfl) _) _ _ _) _ _
  unfold State.becomeOnline
  dsimp only
  split
  · exact (h.of_kept hjoined).askWindow (by simpa using hrun) a
  · exact h.of_kept hjoined

theorem WindowSound.answerOnline (h : WindowSound s) (hrun : s.line.state = .running) (a code : Nat)
    (echo request busy : Bool) : WindowSound (s.answerOnline a code echo request busy) := by
  have hanswered : WindowKept s (((s.modStation a fun t => { t with missCount := 0 }).doubleLook a code).judgeNote a echo busy) :=
    .judgeNote (.doubleLook (.adjust (.refl s) _ _) _ _) _ _ _
  unfold State.answerOnline
  dsimp only
  split
  · exact (h.of_kept hanswered).askWindow (by simpa using hrun) a
  · exact h.of_kept hanswered

theorem WindowSound.ringValid (h : WindowSound s) (hrun : s.line.state = .running) (a code : Nat) (echo request busy : Bool) :
    WindowSound (s.ringValid a code echo request busy) := by
  unfold State.ringValid
  split
  next hs => exact h.of_kept (.modStation (.refl s) _ _ fun ho => by simp [hs] at ho)
  next hs => exact h.of_kept (.modStation (.refl s) _ _ fun ho => by simp [hs] at ho)
  · exact h.becomeOnline hrun _ _ _
  · exact h.answerOnline hrun _ _ _ _ _
  all_goals exact h

theorem WindowSound.ringMiss (h : WindowSound s) (a : Nat) (malformed : Bool) : WindowSound (s.ringMiss a malformed) := by
  unfold State.ringMiss
  split
  · exact h.missOnline _ _
  next hs => exact h.of_kept (.modStation (.refl s) _ _ fun ho => by simp [hs] at ho)
  iterate 2 exact h.of_kept (.adjust (.refl s) _ _)
  all_goals exact h

theorem WindowKept.countQuiet (h : WindowKept s t) : WindowKept s t.countQuiet := by
  unfold State.countQuiet
  dsimp only
  split
  · exact h.trans (.of_frame rfl rfl rfl rfl)
  · exact h.trans (.of_frame rfl rfl rfl rfl)

theorem WindowKept.endQuiet (h : WindowKept s t) : WindowKept s t.endQuiet := h.trans (.of_frame rfl rfl rfl rfl)

theorem WindowSound.judgeAnswer (h : WindowSound s) (hrun : s.line.state = .running) (o : Octet) :
    WindowSound (s.judgeAnswer o) := by
  unfold State.judgeAnswer
  split
  · exact h
  · unfold State.ringAnswer
    repeat' split
    · exact (h.ringMiss _ _).of_kept (.countQuiet (.refl _))
    · exact (h.ringMiss _ _).of_kept (.countQuiet (.refl _))
    · exact (h.ringValid hrun _ _ _ _ _).of_kept (.endQuiet (.refl _))
    · exact h
  · unfold State.probeAnswer
    repeat' split
    · exact h.of_kept (.adjust (.refl s) _ _)
    · exact h.of_kept (.adjust (.refl s) _ _)
    · exact h.of_kept (.endQuiet (.refl s))
    · exact h.of_kept (.endQuiet (.report (.adjust (.refl s) _ _) _))
    · exact h

theorem WindowSound.counters (h : WindowSound s) (x y : Nat) :
    WindowSound { s with window := { s.window with bidCollisions := x, ignoredBids := y } } :=
  ⟨h.once, h.online, h.owner, h.running, h.receiving⟩

theorem WindowSound.judgeBid (h : WindowSound s) (hrun : s.line.state = .running) (b : Bid) : WindowSound (s.judgeBid b) := by
  unfold State.judgeBid
  split
  · exact h
  · exact h.counters _ s.window.ignoredBids
  · split
    · exact h.askWindow hrun _
    · exact h.counters s.window.bidCollisions _

/-! ## The line (R8, R9, R12, R13) -/

theorem windowDown_quiet (s : State) (h : s.rx.state ≠ .idle → s.window.window ≠ none) :
    s.windowDown.window.window = none ∧ s.windowDown.window.queue = [] ∧ s.windowDown.rx.state = .idle :=
  ⟨endWindow_window s .lineDown, rfl, endWindow_rx s .lineDown (fun h => by cases h) h⟩

/-- The line-down effects leave nothing queued, open or being received (R104). -/
theorem windowSound_lineDown (h : s.rx.state ≠ .idle → s.window.window ≠ none) : WindowSound s.lineDown := by
  have hdown : s.stationsDown.stopNotes.rx.state ≠ .idle → s.stationsDown.stopNotes.window.window ≠ none := by
    have hframe : s.stationsDown.stopNotes.window = s.window ∧ s.stationsDown.stopNotes.rx = s.rx := by simp
    rw [hframe.1, hframe.2]
    exact h
  have hlater : s.lineDown.window = s.stationsDown.stopNotes.windowDown.window
      ∧ s.lineDown.rx = s.stationsDown.stopNotes.windowDown.rx := by
    unfold State.lineDown
    simp
  obtain ⟨hwindow, hqueue, hrx⟩ := windowDown_quiet _ hdown
  exact windowSound_of_quiet (by rw [hlater.1, hwindow]) (by rw [hlater.1, hqueue]) (by rw [hlater.2, hrx])

theorem WindowSound.of_stopped (h : WindowSound s) (hrun : s.line.state ≠ .running) (window : t.window = s.window)
    (rx : t.rx = s.rx) : WindowSound t := by
  obtain ⟨hnone, hq⟩ := h.running hrun
  exact windowSound_of_quiet (by rw [window, hnone]) (by rw [window, hq]) (by
    rw [rx]
    exact Classical.byContradiction fun hr => h.receiving hr hnone)

theorem WindowSound.startLine (h : WindowSound s) (hs : s.line.state = .stopped ∨ s.line.state = .faulted) :
    WindowSound s.startLine :=
  h.of_stopped (by obtain hs | hs := hs <;> simp [hs]) rfl rfl

theorem WindowSound.stopLine (h : WindowSound s) : WindowSound s.stopLine := by
  unfold State.stopLine
  dsimp only
  split
  · refine windowSound_lineDown ?_
    exact h.receiving
  next hrun => exact h.of_stopped hrun rfl rfl

theorem WindowSound.faultLine (h : WindowSound s) : WindowSound s.faultLine := by
  unfold State.faultLine
  dsimp only
  split
  · refine windowSound_lineDown ?_
    exact h.receiving
  next hrun => exact h.of_stopped hrun rfl rfl

theorem countStart_state (e : LineEngine) : e.countStart.state = e.state := by
  unfold LineEngine.countStart
  split <;> rfl

theorem WindowSound.endCycle (h : WindowSound s) (good : Bool) : WindowSound (s.endCycle good) := by
  unfold State.endCycle
  dsimp only
  repeat' split
  · exact h.of_kept (.withLine (.refl s) _ (countStart_state _))
  · exact WindowSound.faultLine (h.of_kept (.withLine (.refl s) _ rfl))
  · exact h.of_kept (.withLine (.refl s) _ (countStart_state _))

theorem chooseCall_stations (s : State) : s.chooseCall.poll.stations = s.poll.stations := by
  unfold State.chooseCall
  dsimp only
  repeat' split
  all_goals rfl

theorem WindowKept.chooseCall (h : WindowKept s t) : WindowKept s t.chooseCall := by
  refine h.trans (.of_online (fun b hb => ?_) (by simp) (by simp) (by simp))
  unfold State.isOnline at hb ⊢
  rwa [station_of_stations (chooseCall_stations t)]

theorem WindowKept.makeCall (h : WindowKept s t) : WindowKept s t.makeCall := by
  unfold State.makeCall
  dsimp only
  repeat' split
  · exact h.callNote _
  all_goals exact h.callOut _

theorem WindowSound.runningStart (h : WindowSound s) : WindowSound s.runningStart := by
  have hcall : WindowSound s.windowTick.chooseCall.makeCall := h.of_kept (.makeCall (.chooseCall (.windowTick s)))
  refine hcall.grant.of_kept (.of_frame ?_ ?_ ?_ ?_)
  all_goals simp [State.runningStart]

theorem WindowSound.startCycle (h : WindowSound s) : WindowSound s.startCycle := by
  have hadvance : WindowSound s.advance := h.of_kept (.withLine (.refl s) _ rfl)
  unfold State.startCycle
  repeat' split
  · refine WindowSound.runningStart (hadvance.of_kept ?_)
    unfold State.becomeRunning State.muteSourceless
    refine .changeCircuits ?_ _ _ _
    exact ⟨fun _ hb => hb, rfl, fun w hw => ⟨w, hw, rfl⟩, fun hr => absurd rfl hr, fun h => h⟩
  · exact hadvance.runningStart
  · exact hadvance.of_kept (.withLine (.refl _) _ rfl)

/-! ## Slots -/

theorem WindowKept.takeLoss (h : WindowKept s t) (o : Owner) (prec : Nat) (x : Loss) :
    WindowKept s (State.takeLoss o prec t x) := by
  have htell : ∀ (u : State) (l : Nat) (r : SlotRef), WindowKept s u → WindowKept s (u.tellLane l r) := fun u l r h => by
    unfold State.tellLane
    repeat' split
    · exact h.trans (.of_frame (by simp) (by simp) (by simp) (by simp))
    · exact h.endWindow _ fun h => by cases h
    · exact h
    · exact h
  unfold State.takeLoss
  dsimp only
  repeat' split
  · exact htell _ _ _ (h.trans (.of_frame rfl rfl rfl rfl))
  · exact htell _ _ _ (h.trans (.of_frame rfl rfl rfl rfl))
  · exact h
  · exact h.trans (.of_frame (by simp) (by simp) (by simp) (by simp))
  · exact h.trans (.of_frame (by simp) (by simp) (by simp) (by simp))

theorem WindowKept.applyClaim (h : WindowKept s t) (o : Owner) (prec : Nat) (rs : List SlotRef) :
    WindowKept s (t.applyClaim o prec rs) := by
  refine List.foldlRecOn (motive := WindowKept s) _ _ ?_ fun _ h x _ => h.takeLoss o prec x
  exact List.foldlRecOn (motive := WindowKept s) rs _ h fun _ h _ _ =>
    h.trans (.of_frame (by simp) (by simp) (by simp) (by simp))

theorem WindowKept.freeSlots (h : WindowKept s t) (o : Owner) (rs : List SlotRef) : WindowKept s (t.freeSlots o rs) :=
  h.trans (.of_frame (by simp) (by simp) (by simp) (by simp))

/-! ## Steps -/

theorem WindowSound.of_requestWork (h : WindowSound s) (hw : RequestWork s t) : WindowSound t := by
  cases hw with
  | lineStart hs => exact h.startLine hs
  | lineStop _ => exact h.stopLine
  | lineSet x => exact h.of_kept (.withLine (.refl s) _ rfl)
  | stationEnrol a l _ hf => exact h.of_kept (.modStation (.refl s) _ _ fun ho => by simp [hf] at ho)
  | stationWithdraw a _ _ => exact h.withdraw a
  | stationBar a _ _ => exact h.bar a
  | stationUnbar a _ hb => exact h.of_kept (.modStation (.refl s) _ _ fun ho => by simp [hb] at ho)
  | stationBind a l _ _ => exact h.of_kept (.adjust (.refl s) _ _)
  | stationRead a => exact h.of_kept (.adjust (.refl s) _ _)
  | noteCancel x n _ => exact h.of_kept (.finishNote (.refl s) _ _)
  | laneSet f cut _ _ _ =>
    refine h.of_kept (.freeSlots (.applyClaim ?_ _ _ _) _ _)
    exact .of_frame rfl rfl rfl rfl
  | circuitOpen n f _ _ _ _ =>
    refine h.of_kept (.applyClaim ?_ _ _ _)
    exact .of_frame rfl rfl rfl rfl
  | circuitClose n c _ => exact h.of_kept (.of_frame (by simp) (by simp) (by simp) (by simp))
  | packetCancel x l p _ _ => exact h.of_kept (.of_frame (by simp) (by simp) (by simp) (by simp))
  | laneReset l _ => exact h.of_kept (.of_frame (by simp) (by simp) (by simp) (by simp))
  | _ => exact h.of_kept (.of_frame rfl rfl rfl rfl)

theorem windowAt_window {slot : Nat} {w : Window} (h : s.windowAt slot = some w) : s.window.window = some w := by
  unfold State.windowAt at h
  split at h
  next hw =>
    split_ifs at h
    cases h
    exact hw
  · cases h

theorem WindowSound.of_lineWork (h : WindowSound s) (hw : LineWork s t) : WindowSound t := by
  have hrun : s.inRunningCycle = true → s.line.state = .running := fun hr => (of_decide_eq_true hr).2.2
  cases hw with
  | cycleStart _ => exact h.startCycle
  | cycleEnd good _ => exact h.endCycle good
  | answer o hr => exact h.judgeAnswer (hrun hr) o
  | bid b hr => exact h.judgeBid (hrun hr) b
  | windowOctet slot o w hw => exact h.of_kept (.windowOctet (windowAt_window hw) slot o)
  | circuitOctet slot n o c _ => exact h.of_kept (.of_frame rfl rfl rfl rfl)
  | drive slot o => exact h.of_kept (.of_frame rfl rfl rfl rfl)
  | laneTurn l slot _ => exact h.of_kept (.of_frame (by simp) (by simp) (by simp) (by simp))

theorem WindowSound.of_blocksKept (h : WindowSound s) (k : BlocksKept s t) : WindowSound t :=
  h.of_kept (.of_frame k.poll k.window k.rx (by rw [k.line]))

theorem WindowSound.fresh (cause : RestartCause) (rate : Nat) : WindowSound (State.fresh cause rate) :=
  windowSound_of_quiet rfl rfl rfl

/-- Settles O58: only an ONLINE station is queued and granted, and what leaves ONLINE, or the line RUNNING, leaves the window unit. -/
theorem stepKeepsWindowSound : Obligations.StepKeepsWindowSound := fun _ _ hs hstep =>
  step_keeps_blocks WindowSound (fun _ _ k h => h.of_blocksKept k) WindowSound.fresh
    (fun s h => h.of_kept (.withLine (.refl s) _ rfl)) (fun _ _ h hw => h.of_requestWork hw)
    (fun _ _ h hw => h.of_lineWork hw) hs hstep

end

end Sys2Proof.Machine
end

section
/-! SUPPORT. The Slot Map between two steps of a claim (R65, R68 to R72, R76, R82, R84, R85): the invariant of O59 with the losses not
yet taken and at most one circuit left out, and what each step makes of it. -/

namespace Sys2Proof.Machine

/-- LIVE or MUTED: the circuit owns every slot of both lists (R82). -/
def Circuit.Served (c : Circuit) : Prop := c.state = .live ∨ c.state = .muted

/-- A circuit's lists and its precedence (R79). -/
def Circuit.listed (c : Circuit) : List Nat × List Nat × Nat := (c.up, c.down, c.prec)

/-- A loss that is still to be taken has the slot from the owner. -/
def Pending (ps : List Loss) (o : Owner) (d : Dir) (x : Nat) : Prop := ∃ p ∈ ps, p.entry.owner = o ∧ p.slot = (d, x)

/-- The owner may own or wait for the slot, at its precedence (R65, R69). -/
def State.Entitled (s : State) (o : Owner) (prec : Nat) (d : Dir) (x : Nat) : Prop :=
  s.ownerPrec o = some prec ∧ s.mayOwn o d x

/-- A circuit's state against the map, the Reclaim List and the losses to come (R82). -/
structure CircuitFits (s : State) (ps : List Loss) (n : Nat) (c : Circuit) : Prop where
  served : c.Served → ∀ d, ∀ x ∈ c.slots d, s.owns (.circuit n) d x ∨ Pending ps (.circuit n) d x
  whole : s.ownsAll n c → c.Served
  waits : ∀ d, ∀ x ∈ c.slots d, ¬s.owns (.circuit n) d x → WaitBy (.circuit n) s d x ∨ Pending ps (.circuit n) d x

/-- A loss to come: the slot has left its owner, who does not wait for it yet, and who is entitled to it or a circuit that an earlier
loss has closed (R85). -/
structure LossFits (s : State) (p : Loss) : Prop where
  payload : 5 ≤ p.slot.2 ∧ p.slot.2 ≤ 47
  gone : ¬s.owns p.entry.owner p.slot.1 p.slot.2
  new : ¬WaitBy p.entry.owner s p.slot.1 p.slot.2
  entitled : s.Entitled p.entry.owner p.entry.prec p.slot.1 p.slot.2
    ∨ ∃ n, p.entry.owner = .circuit n ∧ s.circuit n = none

/-- The Slot Map, the Reclaim List and the losses to come, apart from the circuits' states. -/
structure SlotsFit (s : State) (ps : List Loss) : Prop where
  owned : ∀ d x e, s.mapEntry d x = some e → s.Entitled e.owner e.prec d x
  waited : ∀ e ∈ s.slots.reclaim, s.Entitled e.owner e.prec e.dir e.slot
  room : s.slots.reclaim.length ≤ 64
  payload : ∀ e ∈ s.slots.reclaim, 5 ≤ e.slot ∧ e.slot ≤ 47
  once : (s.slots.reclaim.map fun e => (e.owner, e.dir, e.slot)).Nodup
  lost : ∀ e ∈ s.slots.reclaim, ¬s.owns e.owner e.dir e.slot
  circuits : ∀ n c, s.circuit n = some c → c.Sound ∧ c.state ≠ .closed
  losses : ∀ p ∈ ps, LossFits s p
  distinct : (ps.map (·.slot)).Nodup

/-- The invariant of O59 between two steps: the losses `ps` are still to be taken, and circuit `x` is left out. -/
structure MapFits (s : State) (ps : List Loss) (x : Option Nat) : Prop where
  slots : SlotsFit s ps
  fits : ∀ n c, x ≠ some n → s.circuit n = some c → CircuitFits s ps n c

section
variable {s t : State} {ps : List Loss} {x : Option Nat}

theorem mapSound_iff (s : State) : MapSound s ↔ MapFits s [] none := by
  have hnone : ∀ o d y, ¬Pending [] o d y := fun o d y h => by
    obtain ⟨p, hp, -⟩ := h
    cases hp
  constructor
  · intro h
    refine ⟨⟨h.owned, h.waited, h.room, h.payload, h.once, h.lost, h.circuits, fun p hp => absurd hp List.not_mem_nil,
      List.nodup_nil⟩, fun n c _ hc => ⟨fun hs d y hy => .inl ((h.whole n c hc).mp hs d y hy), (h.whole n c hc).mpr,
      fun d y hy hno => .inl ?_⟩⟩
    obtain ⟨e, he, ho, hd, hx⟩ := h.displaced n c hc d y hy hno
    exact ⟨e, he, ho, hd, hx⟩
  · intro h
    have hfits : ∀ n c, s.circuit n = some c → CircuitFits s [] n c := fun n c hc => h.fits n c (by simp) hc
    refine ⟨h.slots.owned, h.slots.waited, h.slots.room, h.slots.payload, h.slots.once, h.slots.lost, h.slots.circuits,
      fun n c hc => ⟨fun hs d y hy => ?_, (hfits n c hc).whole⟩, fun n c hc d y hy hno => ?_⟩
    · exact ((hfits n c hc).served hs d y hy).resolve_right (hnone _ _ _)
    · exact ((hfits n c hc).waits d y hy hno).resolve_right (hnone _ _ _)

/-! ## Owners -/

theorem owns_unique {o o' : Owner} {d : Dir} {y : Nat} (h : s.owns o d y) (h' : s.owns o' d y) : o = o' := by
  obtain ⟨e, he, ho⟩ := h
  obtain ⟨e', he', ho'⟩ := h'
  rw [he] at he'
  cases he'
  exact ho.symm.trans ho'

theorem owns_of_mapEntry {o : Owner} {d : Dir} {y : Nat} (h : t.mapEntry d y = s.mapEntry d y) :
    t.owns o d y ↔ s.owns o d y := by
  unfold State.owns
  rw [h]

theorem slots_of_listed {c c' : Circuit} (h : c'.listed = c.listed) (d : Dir) : c'.slots d = c.slots d := by
  simp only [Circuit.listed, Prod.mk.injEq] at h
  cases d
  · exact h.2.1
  · exact h.1

theorem sound_of_listed {c c' : Circuit} (h : c'.listed = c.listed) (hc : c.Sound) : c'.Sound := by
  have hslots := slots_of_listed h
  simp only [Circuit.listed, Prod.mk.injEq] at h
  obtain ⟨hup, hdown, -⟩ := h
  refine ⟨?_, fun d => hslots d ▸ hc.once d, fun d => hslots d ▸ hc.payload d⟩
  rw [hup, hdown]
  exact hc.width

theorem ownsAll_of_listed {c c' : Circuit} (h : c'.listed = c.listed) (n : Nat) : s.ownsAll n c' ↔ s.ownsAll n c := by
  unfold State.ownsAll
  simp only [slots_of_listed h]

/-- The lanes have their precedences, and the circuits their lists and theirs. -/
structure SameOwners (s t : State) : Prop where
  precs : ∀ l : Nat, (t.lanes[l]?).map Lane.prec = (s.lanes[l]?).map Lane.prec
  lists : ∀ n, (t.circuit n).map Circuit.listed = (s.circuit n).map Circuit.listed

theorem entitled_circuit_iff (n prec : Nat) (d : Dir) (y : Nat) :
    s.Entitled (.circuit n) prec d y ↔ ∃ c, s.circuit n = some c ∧ c.prec = prec ∧ y ∈ c.slots d := by
  constructor
  · rintro ⟨hp, c, hc, hy⟩
    refine ⟨c, hc, ?_, ?_⟩
    · simpa [State.ownerPrec, hc] using hp
    · cases d <;> exact hy
  · rintro ⟨c, hc, hp, hy⟩
    refine ⟨by simp [State.ownerPrec, hc, hp], c, hc, ?_⟩
    cases d <;> exact hy

theorem entitled_lane_iff (l prec : Nat) (d : Dir) (y : Nat) :
    s.Entitled (.lane l) prec d y ↔ (s.lanes[l]?).map Lane.prec = some prec := and_iff_left trivial

theorem SameOwners.listed (h : SameOwners s t) {n : Nat} {c : Circuit} (hc : s.circuit n = some c) :
    ∃ c', t.circuit n = some c' ∧ c'.listed = c.listed := by
  have := h.lists n
  rw [hc] at this
  exact Option.map_eq_some_iff.mp this

theorem SameOwners.symm (h : SameOwners s t) : SameOwners t s := ⟨fun l => (h.precs l).symm, fun n => (h.lists n).symm⟩

theorem SameOwners.of_eq (lanes : t.lanes = s.lanes) (circuits : t.circuits = s.circuits) : SameOwners s t :=
  ⟨fun _ => by rw [lanes], fun _ => by unfold State.circuit; rw [circuits]⟩

theorem SameOwners.entitled (h : SameOwners s t) {o : Owner} {prec : Nat} {d : Dir} {y : Nat}
    (he : s.Entitled o prec d y) : t.Entitled o prec d y := by
  cases o with
  | lane l =>
    rw [entitled_lane_iff] at he ⊢
    exact (h.precs l).trans he
  | circuit n =>
    rw [entitled_circuit_iff] at he ⊢
    obtain ⟨c, hc, hp, hy⟩ := he
    obtain ⟨c', hc', hl⟩ := h.listed hc
    refine ⟨c', hc', ?_, slots_of_listed hl d ▸ hy⟩
    simp only [Circuit.listed, Prod.mk.injEq] at hl
    exact hl.2.2.trans hp

theorem SameOwners.none (h : SameOwners s t) {n : Nat} (hn : s.circuit n = none) : t.circuit n = none := by
  have := h.lists n
  rw [hn] at this
  exact Option.map_eq_none_iff.mp this

theorem circuit_lt {n : Nat} {c : Circuit} (h : s.circuit n = some c) : n < s.circuits.length := by
  by_contra hn
  simp [State.circuit, List.getElem?_eq_none (Nat.le_of_not_lt hn)] at h

/-! ## Freeing a slot (R72) -/

theorem wins_of_bestEntry {l : List ReclaimEntry} {e : ReclaimEntry} (h : bestEntry l = some e) : Wins l e := by
  induction l generalizing e with
  | nil => cases h
  | cons a rest ih =>
    unfold bestEntry at h
    split at h
    next b hb =>
      obtain ⟨A, B, hl, hA, hB⟩ := ih hb
      split at h
      next hlt =>
        cases h
        refine ⟨a :: A, B, by rw [hl]; rfl, fun y hy => ?_, hB⟩
        obtain rfl | hy := List.mem_cons.mp hy
        · exact hlt
        · exact hA y hy
      next hge =>
        cases h
        refine ⟨[], rest, rfl, fun y hy => absurd hy List.not_mem_nil, fun y hy => ?_⟩
        rw [hl] at hy
        obtain hy | hy := List.mem_append.mp hy
        · have := hA y hy
          omega
        · obtain rfl | hy := List.mem_cons.mp hy
          · omega
          · have := hB y hy
            omega
    next hnone =>
      cases h
      exact ⟨[], [], by rw [bestEntry_none hnone]; rfl, by simp, by simp⟩

/-- What freeing a slot does to the circuits: nothing, or a DISPLACED one that wins the slot and is whole again is LIVE or MUTED (R82). -/
theorem freeSlot_circuits_cases (s : State) (hs : s.slots.down.length = 43 ∧ s.slots.up.length = 43) (o : Owner)
    (r : SlotRef) (hr : 5 ≤ r.2 ∧ r.2 ≤ 47) :
    ((s.freeSlot o r).circuits = s.circuits ∧ ∀ e n c, bestEntry (s.waitingAt r) = some e → e.owner = .circuit n →
        s.circuit n = some c → c.state = .displaced → ¬(s.freeSlot o r).ownsAll n c)
      ∨ ∃ e n c k, bestEntry (s.waitingAt r) = some e ∧ e.owner = .circuit n ∧ s.circuit n = some c
        ∧ (k = .live ∨ k = .muted) ∧ (s.freeSlot o r).ownsAll n c
        ∧ (s.freeSlot o r).circuits = s.circuits.set n (some { c.emptied with state := k }) := by
  have hgo := freeSlot_letsGo s hs o r hr
  cases hb : bestEntry (s.waitingAt r) with
  | none =>
    have hnil := bestEntry_none hb
    obtain ⟨-, -, he⟩ := hgo.unclaimed fun e he hre => by
      have : e ∈ s.waitingAt r := List.mem_filter.mpr ⟨he, decide_eq_true hre⟩
      rw [hnil] at this
      cases this
    exact .inl ⟨(congrArg State.circuits he :), fun e n c he => by cases he⟩
  | some e =>
    obtain ⟨-, -, hlane, hwon, hstay⟩ := hgo.won e (wins_of_bestEntry hb)
    cases ho : e.owner with
    | lane l =>
      refine .inl ⟨(congrArg State.circuits (hlane l ho) :), fun e' n c he' ho' => ?_⟩
      cases he'
      rw [ho] at ho'
      cases ho'
    | circuit m =>
      by_cases hm : ∃ c, s.circuit m = some c ∧ c.state = .displaced ∧ (s.freeSlot o r).ownsAll m c
      · obtain ⟨c, hc, hd, hall⟩ := hm
        refine .inr ⟨e, m, c, _, rfl, ho, hc, ?_, hall, (congrArg State.circuits (hwon m c ho hc hd hall) :)⟩
        split
        · exact .inl rfl
        · exact .inr rfl
      · have hno : ∀ c, s.circuit m = some c → c.state = .displaced → ¬(s.freeSlot o r).ownsAll m c :=
          fun c hc hd hall => hm ⟨c, hc, hd, hall⟩
        refine .inl ⟨(congrArg State.circuits (hstay m ho hno) :), fun e' n c he' ho' => ?_⟩
        cases he'
        rw [ho] at ho'
        cases ho'
        exact hno c

theorem circuit_of_circuits (h : t.circuits = s.circuits) (n : Nat) : t.circuit n = s.circuit n := by
  unfold State.circuit
  rw [h]

/-- One circuit's record is replaced. -/
theorem circuit_of_set {n : Nat} {v : Option Circuit} (h : t.circuits = s.circuits.set n v) (m : Nat) :
    t.circuit m = if m = n ∧ n < s.circuits.length then v else s.circuit m := by
  unfold State.circuit
  rw [h, List.getElem?_set]
  by_cases hm : n = m
  · subst hm
    by_cases hn : n < s.circuits.length
    · simp [hn]
    · simp [hn]
  · simp [hm, Ne.symm hm]

theorem freeSlot_sameOwners (hs : s.slots.down.length = 43 ∧ s.slots.up.length = 43) (o : Owner) {r : SlotRef}
    (hr : 5 ≤ r.2 ∧ r.2 ≤ 47) : SameOwners s (s.freeSlot o r) := by
  refine ⟨fun l => by simp, fun m => ?_⟩
  obtain ⟨hc, -⟩ | ⟨-, n, c, k, -, -, hc, -, -, hset⟩ := freeSlot_circuits_cases s hs o r hr
  · rw [circuit_of_circuits hc]
  · rw [circuit_of_set hset]
    split
    next hm =>
      obtain ⟨rfl, -⟩ := hm
      rw [hc]
      rfl
    · rfl

/-- The winner's entry has left the list. -/
theorem mem_erase_of_once {l : List ReclaimEntry} (h : (l.map fun e => (e.owner, e.dir, e.slot)).Nodup) {e f : ReclaimEntry} :
    f ∈ l.erase e ↔ f ≠ e ∧ f ∈ l :=
  (List.Nodup.of_map _ h).mem_erase_iff

theorem eq_of_key {l : List ReclaimEntry} (h : (l.map fun e => (e.owner, e.dir, e.slot)).Nodup) {e f : ReclaimEntry}
    (he : e ∈ l) (hf : f ∈ l) (ho : f.owner = e.owner) (hd : f.dir = e.dir) (hx : f.slot = e.slot) : f = e :=
  List.inj_on_of_nodup_map h hf he (by rw [ho, hd, hx])

section
variable (hs : s.slots.down.length = 43 ∧ s.slots.up.length = 43) {o : Owner} {r : SlotRef} (hr : 5 ≤ r.2 ∧ r.2 ≤ 47)
include hs hr

/-- Whoever owns a slot after it was freed, or another slot, owned it before or has won it. -/
theorem freeSlot_owns {o' : Owner} {d : Dir} {y : Nat} (h : (s.freeSlot o r).owns o' d y) :
    ((d, y) ≠ r ∧ s.owns o' d y)
      ∨ ((d, y) = r ∧ ∃ e ∈ s.slots.reclaim, e.owner = o' ∧ e.dir = d ∧ e.slot = y ∧ bestEntry (s.waitingAt r) = some e) := by
  obtain ⟨hat, hother, -, -, -⟩ := freeSlot_spec s hs o r hr
  by_cases hy : (d, y) = r
  · subst hy
    obtain ⟨f, hf, ho⟩ := h
    rw [hat] at hf
    obtain ⟨e, he, rfl⟩ := Option.map_eq_some_iff.mp hf
    obtain ⟨hmem, hkey⟩ := List.mem_filter.mp (bestEntry_mem he)
    obtain ⟨hd, hx⟩ := of_decide_eq_true hkey
    exact .inr ⟨rfl, e, hmem, ho, hd, hx, he⟩
  · exact .inl ⟨hy, (owns_of_mapEntry (hother d y hy)).mp h⟩

/-- Freeing a slot takes it from its owner only. -/
theorem freeSlot_keeps_owns (howns : s.owns o r.1 r.2) {o' : Owner} (hne : o' ≠ o) {d : Dir} {y : Nat}
    (h : s.owns o' d y) : (s.freeSlot o r).owns o' d y := by
  obtain ⟨-, hother, -, -, -⟩ := freeSlot_spec s hs o r hr
  have hy : (d, y) ≠ r := fun hy => by
    subst hy
    exact hne (owns_unique h howns)
  exact (owns_of_mapEntry (hother d y hy)).mpr h

/-- Who waited still waits, or has won the slot. -/
theorem freeSlot_waits {o' : Owner} {d : Dir} {y : Nat} (h : WaitBy o' s d y) :
    WaitBy o' (s.freeSlot o r) d y ∨ (s.freeSlot o r).owns o' d y := by
  obtain ⟨hat, -, -, hreclaim, -⟩ := freeSlot_spec s hs o r hr
  obtain ⟨e, he, ho, hd, hx⟩ := h
  cases hb : bestEntry (s.waitingAt r) with
  | none =>
    rw [hb] at hreclaim
    exact .inl ⟨e, hreclaim ▸ he, ho, hd, hx⟩
  | some f =>
    rw [hb] at hreclaim hat
    by_cases hef : e = f
    · subst hef
      obtain ⟨-, hkey⟩ := List.mem_filter.mp (bestEntry_mem hb)
      obtain ⟨hd', hx'⟩ := of_decide_eq_true hkey
      refine .inr ⟨{ owner := e.owner, prec := e.prec }, ?_, ho⟩
      rw [← hd, ← hx, hd', hx']
      exact hat
    · refine .inl ⟨e, ?_, ho, hd, hx⟩
      rw [hreclaim]
      exact (List.mem_erase_of_ne hef).mpr he

theorem SlotsFit.freeSlot (h : SlotsFit s ps) : SlotsFit (s.freeSlot o r) ps := by
  obtain ⟨hat, hother, -, hreclaim, -⟩ := freeSlot_spec s hs o r hr
  have hsame := freeSlot_sameOwners hs o hr
  have hsub : (s.freeSlot o r).slots.reclaim.Sublist s.slots.reclaim := by
    rw [hreclaim]
    split
    · exact List.Sublist.refl _
    · exact List.erase_sublist
  refine ⟨fun d y e he => ?_, fun e he => hsame.entitled (h.waited e (hsub.subset he)), hsub.length_le.trans h.room,
    fun e he => h.payload e (hsub.subset he), h.once.sublist (hsub.map _), fun e he how => ?_, fun n c hc => ?_,
    fun p hp => ?_, h.distinct⟩
  · refine hsame.entitled ?_
    by_cases hy : (d, y) = r
    · subst hy
      rw [hat] at he
      obtain ⟨w, hw, rfl⟩ := Option.map_eq_some_iff.mp he
      obtain ⟨hmem, hkey⟩ := List.mem_filter.mp (bestEntry_mem hw)
      obtain ⟨hd, hx⟩ := of_decide_eq_true hkey
      have := h.waited w hmem
      rwa [hd, hx] at this
    · rw [hother d y hy] at he
      exact h.owned d y e he
  · obtain ⟨-, how⟩ | ⟨-, w, hw, ho, hd, hx, hb⟩ := freeSlot_owns hs hr how
    · exact h.lost e (hsub.subset he) how
    · rw [hb] at hreclaim
      rw [hreclaim] at he
      obtain ⟨hne, hmem⟩ := (mem_erase_of_once h.once).mp he
      exact hne (eq_of_key h.once hw hmem ho.symm hd.symm hx.symm)
  · obtain ⟨hc', -⟩ | ⟨-, m, c₀, k, -, -, hc₀, hk, -, hset⟩ := freeSlot_circuits_cases s hs o r hr
    · exact h.circuits n c (circuit_of_circuits hc' n ▸ hc)
    · rw [circuit_of_set hset] at hc
      split at hc
      next hn =>
        cases hc
        obtain ⟨hsound, -⟩ := h.circuits m c₀ hc₀
        refine ⟨sound_of_listed (c := c₀) rfl hsound, ?_⟩
        obtain rfl | rfl := hk <;> simp
      · exact h.circuits n c hc
  · obtain ⟨hpay, hgone, hnew, hent⟩ := h.losses p hp
    refine ⟨hpay, fun how => ?_, fun hw => ?_, ?_⟩
    · obtain ⟨-, how⟩ | ⟨-, w, hw, ho, hd, hx, -⟩ := freeSlot_owns hs hr how
      · exact hgone how
      · exact hnew ⟨w, hw, ho, hd, hx⟩
    · obtain ⟨e, he, hkey⟩ := hw
      exact hnew ⟨e, hsub.subset he, hkey⟩
    · exact hent.imp hsame.entitled fun ⟨n, ho, hn⟩ => ⟨n, ho, hsame.none hn⟩

theorem MapFits.freeSlot (h : MapFits s ps x) (howns : s.owns o r.1 r.2) (ho : ∀ n, o = .circuit n → x = some n) :
    MapFits (s.freeSlot o r) ps x := by
  refine ⟨h.slots.freeSlot hs hr, fun n c' hn hc' => ?_⟩
  have hne : (Owner.circuit n) ≠ o := fun he => hn (ho n he.symm)
  obtain ⟨c, hc, hl⟩ := (freeSlot_sameOwners hs o hr).symm.listed hc'
  have hfits := h.fits n c hn hc
  have hslots := slots_of_listed hl
  have hkeep : ∀ d y, s.owns (.circuit n) d y → (s.freeSlot o r).owns (.circuit n) d y :=
    fun d y => freeSlot_keeps_owns hs hr howns hne
  have hwaits : ∀ d, ∀ y ∈ c'.slots d, ¬(s.freeSlot o r).owns (.circuit n) d y →
      WaitBy (.circuit n) (s.freeSlot o r) d y ∨ Pending ps (.circuit n) d y := fun d y hy hno => by
    obtain hw | hp := hfits.waits d y (hslots d ▸ hy) fun how => hno (hkeep d y how)
    · exact .inl ((freeSlot_waits hs hr hw).resolve_right hno)
    · exact .inr hp
  have hstays : (∀ e, bestEntry (s.waitingAt r) = some e → e.owner = .circuit n → c.state = .displaced →
      ¬(s.freeSlot o r).ownsAll n c) → c' = c → CircuitFits (s.freeSlot o r) ps n c' := fun hstay he => by
    subst he
    refine ⟨fun hserved d y hy => (hfits.served hserved d y hy).imp_left (hkeep d y), fun hall => ?_, hwaits⟩
    by_contra hns
    have hdisplaced : c'.state = .displaced := by
      have hclosed := (h.slots.circuits n c' hc).2
      unfold Circuit.Served at hns
      cases hst : c'.state <;> simp_all
    obtain ⟨d, y, hy, hno⟩ : ∃ d, ∃ y ∈ c'.slots d, ¬s.owns (.circuit n) d y := by
      by_contra hall'
      exact hns (hfits.whole fun d y hy => Classical.byContradiction fun hno => hall' ⟨d, y, hy, hno⟩)
    obtain ⟨-, how⟩ | ⟨-, e, -, heo, -, -, hb⟩ := freeSlot_owns hs hr (hall d y hy)
    · exact hno how
    · exact hstay e hb heo hdisplaced hall
  obtain ⟨hsame, hstay⟩ | ⟨e, m, c₀, k, hb, heo, hc₀, hk, hall, hset⟩ := freeSlot_circuits_cases s hs o r hr
  · rw [circuit_of_circuits hsame, hc] at hc'
    exact hstays (fun e hb heo => hstay e n c hb heo hc) (Option.some.inj hc').symm
  · rw [circuit_of_set hset] at hc'
    split at hc'
    next hm =>
      obtain ⟨rfl, -⟩ := hm
      rw [hc] at hc₀
      cases hc₀
      cases hc'
      exact ⟨fun _ d y hy => .inl (hall d y hy), fun _ => hk, hwaits⟩
    next hm =>
      rw [hc] at hc'
      refine hstays (fun e' hb' heo' => ?_) (Option.some.inj hc').symm
      rw [hb] at hb'
      cases hb'
      rw [heo] at heo'
      cases heo'
      exact absurd ⟨rfl, circuit_lt hc₀⟩ hm

end

/-! ## Freeing several slots, and the end of a circuit (R76, R84, R85) -/

theorem MapFits.freeSlots (o : Owner) (ho : ∀ n, o = .circuit n → x = some n) (rs : List SlotRef)
    (hin : ∀ r ∈ rs, 5 ≤ r.2 ∧ r.2 ≤ 47) (hs : s.slots.down.length = 43 ∧ s.slots.up.length = 43)
    (h : MapFits s ps x) : MapFits (s.freeSlots o rs) ps x := by
  induction rs generalizing s with
  | nil => exact h
  | cons r rs ih =>
    have hr := hin r List.mem_cons_self
    have hrest := fun r hm => hin r (List.mem_cons_of_mem _ hm)
    show MapFits (State.freeSlots (if _ then _ else _) o rs) ps x
    split
    next howns =>
      obtain ⟨-, -, -, -, hlen⟩ := freeSlot_spec s hs o r hr
      exact ih hrest hlen (h.freeSlot hs hr ((mapEntry_any_iff_owns s o r).mp howns) ho)
    · exact ih hrest hs h

theorem freeSlots_sameOwners (o : Owner) (rs : List SlotRef) (hin : ∀ r ∈ rs, 5 ≤ r.2 ∧ r.2 ≤ 47)
    (hs : s.slots.down.length = 43 ∧ s.slots.up.length = 43) : SameOwners s (s.freeSlots o rs) := by
  induction rs generalizing s with
  | nil => exact .of_eq rfl rfl
  | cons r rs ih =>
    have hr := hin r List.mem_cons_self
    have hrest := fun r hm => hin r (List.mem_cons_of_mem _ hm)
    show SameOwners s (State.freeSlots (if _ then _ else _) o rs)
    split
    · obtain ⟨-, -, -, -, hlen⟩ := freeSlot_spec s hs o r hr
      have hfirst := freeSlot_sameOwners hs o hr
      have hlater := ih hrest hlen
      exact ⟨fun l => (hlater.precs l).trans (hfirst.precs l), fun n => (hlater.lists n).trans (hfirst.lists n)⟩
    · exact ih hrest hs

/-- Leaving a circuit out asks less. -/
theorem MapFits.leaveOut (h : MapFits s ps none) (n : Nat) : MapFits s ps (some n) :=
  ⟨h.slots, fun m c _ hc => h.fits m c (by simp) hc⟩

/-- Entries leave the Reclaim List: a lane's, or those of the circuit left out (R70). -/
theorem MapFits.dropReclaim (h : MapFits s ps x) (p : ReclaimEntry → Bool)
    (hp : ∀ e ∈ s.slots.reclaim, p e = true → ∀ n, e.owner = .circuit n → x = some n) : MapFits (s.dropReclaim p) ps x := by
  have hsub : (s.dropReclaim p).slots.reclaim.Sublist s.slots.reclaim := List.filter_sublist
  have hmap : ∀ d y, (s.dropReclaim p).mapEntry d y = s.mapEntry d y := fun d y => by cases d <;> rfl
  have howns : ∀ o d y, (s.dropReclaim p).owns o d y ↔ s.owns o d y := fun o d y => owns_of_mapEntry (hmap d y)
  have hsame : SameOwners s (s.dropReclaim p) := .of_eq rfl rfl
  refine ⟨⟨fun d y e he => hsame.entitled (h.slots.owned d y e (hmap d y ▸ he)),
    fun e he => hsame.entitled (h.slots.waited e (hsub.subset he)), hsub.length_le.trans h.slots.room,
    fun e he => h.slots.payload e (hsub.subset he), h.slots.once.sublist (hsub.map _),
    fun e he how => h.slots.lost e (hsub.subset he) ((howns _ _ _).mp how), h.slots.circuits, fun q hq => ?_,
    h.slots.distinct⟩, fun n c hn hc => ?_⟩
  · obtain ⟨hpay, hgone, hnew, hent⟩ := h.slots.losses q hq
    refine ⟨hpay, fun how => hgone ((howns _ _ _).mp how), fun hw => ?_, hent.imp_left hsame.entitled⟩
    obtain ⟨e, he, hkey⟩ := hw
    exact hnew ⟨e, hsub.subset he, hkey⟩
  · obtain ⟨hserved, hwhole, hwaits⟩ := h.fits n c hn hc
    refine ⟨fun hst d y hy => (hserved hst d y hy).imp_left (howns _ _ _).mpr,
      fun hall => hwhole fun d y hy => (howns _ _ _).mp (hall d y hy), fun d y hy hno => ?_⟩
    refine (hwaits d y hy fun how => hno ((howns _ _ _).mpr how)).imp_left fun ⟨e, he, ho, hkey⟩ => ?_
    refine ⟨e, List.mem_filter.mpr ⟨he, ?_⟩, ho, hkey⟩
    cases hpe : p e with
    | false => rfl
    | true => exact absurd (hp e he hpe n ho) hn

/-- A circuit that owns nothing and waits for nothing ends. -/
theorem MapFits.endCircuit {n : Nat} (h : MapFits s ps (some n)) (howns : ∀ d y, ¬s.owns (.circuit n) d y)
    (hwaits : ∀ d y, ¬WaitBy (.circuit n) s d y) : MapFits (s.setCircuit n none) ps none := by
  have hself : (s.setCircuit n none).circuit n = none := by
    rw [circuit_of_set (rfl : (s.setCircuit n none).circuits = s.circuits.set n none)]
    split
    · rfl
    next hn =>
      cases hc : s.circuit n with
      | none => rfl
      | some c => exact absurd ⟨rfl, circuit_lt hc⟩ hn
  have hother : ∀ m, m ≠ n → (s.setCircuit n none).circuit m = s.circuit m := fun m hm => s.circuit_setCircuit_ne n m none hm
  have hent : ∀ {o prec d y}, o ≠ .circuit n → s.Entitled o prec d y → (s.setCircuit n none).Entitled o prec d y := by
    intro o prec d y ho he
    cases o with
    | lane l => exact he
    | circuit m =>
      rw [entitled_circuit_iff] at he ⊢
      rw [hother m fun hm => ho (by rw [hm])]
      exact he
  refine ⟨⟨fun d y e he => ?_, fun e he => ?_, h.slots.room, h.slots.payload, h.slots.once, h.slots.lost, fun m c hc => ?_,
    fun p hp => ?_, h.slots.distinct⟩, fun m c _ hc => ?_⟩
  · exact hent (fun ho => howns d y ⟨e, he, ho⟩) (h.slots.owned d y e he)
  · exact hent (fun ho => hwaits e.dir e.slot ⟨e, he, ho, rfl, rfl⟩) (h.slots.waited e he)
  · by_cases hm : m = n
    · subst hm
      rw [hself] at hc
      cases hc
    · exact h.slots.circuits m c (hother m hm ▸ hc)
  · obtain ⟨hpay, hgone, hnew, hold⟩ := h.slots.losses p hp
    refine ⟨hpay, hgone, hnew, ?_⟩
    by_cases ho : p.entry.owner = .circuit n
    · exact .inr ⟨n, ho, hself⟩
    · refine hold.imp (hent ho) fun ⟨m, hm, hc⟩ => ⟨m, hm, ?_⟩
      rw [hother m fun hmn => ho (hmn ▸ hm)]
      exact hc
  · have hm : m ≠ n := fun hm => by
      subst hm
      rw [hself] at hc
      cases hc
    obtain ⟨hserved, hwhole, hwaits⟩ := h.fits m c (fun he => hm (Option.some.inj he).symm) (hother m hm ▸ hc)
    exact ⟨hserved, hwhole, hwaits⟩

/-- The slots of a circuit that waits for nothing are freed, and it ends (R84, R85). -/
theorem MapFits.removeCircuit (hs : s.slots.down.length = 43 ∧ s.slots.up.length = 43) {n : Nat} {c : Circuit}
    (h : MapFits s ps (some n)) (hc : s.circuit n = some c) (hwaits : ∀ d y, ¬WaitBy (.circuit n) s d y) :
    MapFits (s.removeCircuit n c) ps none := by
  obtain ⟨hkept, hfreed, hreclaim, -, -⟩ :=
    freeSlots_spec (.circuit n) (claimSlots c.down c.up) (nodup_claimSlots _ _) (in_claimSlots _ _) s hs
  refine MapFits.endCircuit (h.freeSlots (.circuit n) ?_ _ (in_claimSlots _ _) hs) (fun d y how => ?_) fun d y hw => ?_
  · intro m hm
    cases hm
    rfl
  · by_cases hin : (d, y) ∈ claimSlots c.down c.up ∧ s.owns (.circuit n) d y
    · obtain ⟨hin, hown⟩ := hin
      obtain ⟨f, hf, ho⟩ := how
      rw [hfreed d y hin hown] at hf
      obtain ⟨e, he, rfl⟩ := Option.map_eq_some_iff.mp hf
      obtain ⟨hmem, hkey⟩ := List.mem_filter.mp (bestEntry_mem he)
      obtain ⟨hd, hx⟩ := of_decide_eq_true hkey
      exact hwaits d y ⟨e, hmem, ho, hd, hx⟩
    · have hstay := hkept d y (by
        by_cases hm : (d, y) ∈ claimSlots c.down c.up
        · exact .inr fun hown => hin ⟨hm, hown⟩
        · exact .inl hm)
      have hown := (owns_of_mapEntry hstay).mp how
      obtain ⟨e, he, ho⟩ := hown
      have hent := h.slots.owned d y e he
      rw [ho, entitled_circuit_iff] at hent
      obtain ⟨c', hc', -, hy⟩ := hent
      rw [hc] at hc'
      cases hc'
      refine hin ⟨?_, e, he, ho⟩
      rw [mem_claimSlots]
      refine ⟨mapEntry_range hs he, ?_⟩
      cases d <;> exact hy
  · obtain ⟨e, he, hkey⟩ := hw
    exact hwaits d y ⟨e, hreclaim e he, hkey⟩

theorem MapFits.closeCircuit (hs : s.slots.down.length = 43 ∧ s.slots.up.length = 43) {n : Nat} {c : Circuit}
    (h : MapFits s ps none) (hc : s.circuit n = some c) : MapFits (s.closeCircuit n c) ps none := by
  unfold State.closeCircuit
  refine MapFits.removeCircuit ?_ ((h.leaveOut n).dropReclaim _ fun e _ hp m ho => ?_) ?_ fun d y hw => ?_
  · exact hs
  · have hn := of_decide_eq_true hp
    rw [ho] at hn
    cases hn
    rfl
  · exact hc
  · obtain ⟨e, he, ho, -⟩ := hw
    have hno := (List.mem_filter.mp he).2
    simp [ho] at hno

/-! ## Losses (R68) -/

/-- Reports, and whatever is not of the map, may change. -/
theorem MapFits.of_eq (h : MapFits s ps x) (slots : t.slots = s.slots) (circuits : t.circuits = s.circuits)
    (precs : ∀ l : Nat, (t.lanes[l]?).map Lane.prec = (s.lanes[l]?).map Lane.prec) : MapFits t ps x := by
  have hcirc := circuit_of_circuits circuits
  have hsame : SameOwners s t := ⟨precs, fun n => by rw [hcirc]⟩
  have howns : ∀ o d y, t.owns o d y ↔ s.owns o d y := fun o d y => owns_slots slots o d y
  have hwait : ∀ o d y, WaitBy o t d y ↔ WaitBy o s d y := fun o d y => by
    unfold WaitBy
    rw [slots]
  refine ⟨⟨fun d y e he => hsame.entitled (h.slots.owned d y e (mapEntry_of_slots slots d y ▸ he)),
    fun e he => hsame.entitled (h.slots.waited e (slots ▸ he)), slots ▸ h.slots.room, slots ▸ h.slots.payload,
    slots ▸ h.slots.once, fun e he how => h.slots.lost e (slots ▸ he) ((howns _ _ _).mp how),
    fun n c hc => h.slots.circuits n c (hcirc n ▸ hc), fun p hp => ?_, h.slots.distinct⟩, fun n c hn hc => ?_⟩
  · obtain ⟨hpay, hgone, hnew, hent⟩ := h.slots.losses p hp
    exact ⟨hpay, fun how => hgone ((howns _ _ _).mp how), fun hw => hnew ((hwait _ _ _).mp hw),
      hent.imp hsame.entitled fun ⟨n, ho, hn⟩ => ⟨n, ho, hsame.none hn⟩⟩
  · obtain ⟨hserved, hwhole, hwaits⟩ := h.fits n c hn (hcirc n ▸ hc)
    exact ⟨fun hst d y hy => (hserved hst d y hy).imp_left (howns _ _ _).mpr,
      fun hall => hwhole fun d y hy => (howns _ _ _).mp (hall d y hy),
      fun d y hy hno => (hwaits d y hy fun how => hno ((howns _ _ _).mpr how)).imp_left (hwait _ _ _).mpr⟩

theorem pending_cons {p : Loss} {o : Owner} {d : Dir} {y : Nat} (h : Pending (p :: ps) o d y) (ho : p.entry.owner ≠ o) :
    Pending ps o d y := by
  obtain ⟨q, hq, hqo, hqs⟩ := h
  obtain rfl | hq := List.mem_cons.mp hq
  · exact absurd hqo ho
  · exact ⟨q, hq, hqo, hqs⟩

/-- A loss is over without a new entry: a lane's with the list full, or that of a circuit left out or closed. -/
theorem MapFits.skipLoss {p : Loss} (h : MapFits s (p :: ps) x)
    (hp : ∀ n, p.entry.owner = .circuit n → x = some n ∨ s.circuit n = none) : MapFits s ps x := by
  obtain ⟨⟨owned, waited, room, payload, once, lost, circuits, losses, distinct⟩, fits⟩ := h
  refine ⟨⟨owned, waited, room, payload, once, lost, circuits, fun q hq => losses q (List.mem_cons_of_mem p hq),
    (List.nodup_cons.mp distinct).2⟩, fun n c hn hc => ?_⟩
  obtain ⟨hserved, hwhole, hwaits⟩ := fits n c hn hc
  have hne : p.entry.owner ≠ .circuit n := fun ho => by
    obtain hx | hnone := hp n ho
    · exact hn hx
    · rw [hc] at hnone
      cases hnone
  exact ⟨fun hst d y hy => (hserved hst d y hy).imp_right (pending_cons · hne), hwhole,
    fun d y hy hno => (hwaits d y hy hno).imp_right (pending_cons · hne)⟩

/-- The circuit that loses, of which the rest of the step is still to come. -/
def Owner.circuit? : Owner → Option Nat
  | .lane _ => none
  | .circuit n => some n

/-- The loser's entry joins the end of the Reclaim List (R68, R71). -/
theorem MapFits.addReclaim {p : Loss} (h : MapFits s (p :: ps) none)
    (hent : s.Entitled p.entry.owner p.entry.prec p.slot.1 p.slot.2) (hroom : s.slots.reclaim.length < 64) :
    MapFits (s.addReclaim p) ps p.entry.owner.circuit? := by
  have hmap : ∀ d y, (s.addReclaim p).mapEntry d y = s.mapEntry d y := fun d y => by cases d <;> rfl
  have howns : ∀ o d y, (s.addReclaim p).owns o d y ↔ s.owns o d y := fun o d y => owns_of_mapEntry (hmap d y)
  have hsame : SameOwners s (s.addReclaim p) := .of_eq rfl rfl
  have hmem : ∀ e, e ∈ (s.addReclaim p).slots.reclaim ↔ e ∈ s.slots.reclaim
      ∨ e = { owner := p.entry.owner, dir := p.slot.1, slot := p.slot.2, prec := p.entry.prec } := fun e => by
    simp [State.addReclaim]
  have hwait : ∀ o d y, WaitBy o s d y → WaitBy o (s.addReclaim p) d y := fun o d y ⟨e, he, hkey⟩ =>
    ⟨e, (hmem e).mpr (.inl he), hkey⟩
  obtain ⟨⟨owned, waited, room, payload, once, lost, circuits, losses, distinct⟩, fits⟩ := h
  obtain ⟨hpay, hgone, hnew, -⟩ := losses p List.mem_cons_self
  refine ⟨⟨fun d y e he => hsame.entitled (owned d y e (hmap d y ▸ he)), fun e he => hsame.entitled ?_, ?_, fun e he => ?_, ?_,
    fun e he how => ?_, circuits, fun q hq => ?_, (List.nodup_cons.mp distinct).2⟩, fun n c hn hc => ?_⟩
  · obtain he | rfl := (hmem e).mp he
    · exact waited e he
    · exact hent
  · simpa [State.addReclaim] using hroom
  · obtain he | rfl := (hmem e).mp he
    · exact payload e he
    · exact hpay
  · simp only [State.addReclaim, List.map_append, List.map_cons, List.map_nil]
    rw [List.nodup_append_comm, List.singleton_append, List.nodup_cons]
    refine ⟨fun hk => ?_, once⟩
    obtain ⟨e, he, hkey⟩ := List.mem_map.mp hk
    simp only [Prod.mk.injEq] at hkey
    exact hnew ⟨e, he, hkey.1, hkey.2.1, hkey.2.2⟩
  · have how := (howns _ _ _).mp how
    obtain he | rfl := (hmem e).mp he
    · exact lost e he how
    · exact hgone how
  · obtain ⟨hqpay, hqgone, hqnew, hqent⟩ := losses q (List.mem_cons_of_mem p hq)
    refine ⟨hqpay, fun how => hqgone ((howns _ _ _).mp how), fun hw => ?_, hqent.imp_left hsame.entitled⟩
    obtain ⟨e, he, hkey⟩ := hw
    obtain he | rfl := (hmem e).mp he
    · exact hqnew ⟨e, he, hkey⟩
    · refine (List.nodup_cons.mp distinct).1 (List.mem_map.mpr ⟨q, hq, ?_⟩)
      exact Prod.ext hkey.2.1.symm hkey.2.2.symm
  · obtain ⟨hserved, hwhole, hwaits⟩ := fits n c (by simp) hc
    have hne : p.entry.owner ≠ .circuit n := fun ho => hn (by rw [ho]; rfl)
    exact ⟨fun hst d y hy => (hserved hst d y hy).imp (howns _ _ _).mpr (pending_cons · hne),
      fun hall => hwhole fun d y hy => (howns _ _ _).mp (hall d y hy),
      fun d y hy hno => (hwaits d y hy fun how => hno ((howns _ _ _).mpr how)).imp (hwait _ _ _) (pending_cons · hne)⟩

/-- A circuit left out changes state. -/
theorem MapFits.changeCircuit {n : Nat} {c : Circuit} (h : MapFits s ps (some n)) (hc : s.circuit n = some c)
    {new : CircuitState} (hnew : new ≠ .closed) (reason : CircuitReason) (lost : Option SlotRef) :
    MapFits (s.changeCircuit n c new reason lost) ps (some n)
      ∧ (s.changeCircuit n c new reason lost).circuit n = some { c.silence with state := new } := by
  have hset : ∀ m, (s.changeCircuit n c new reason lost).circuit m
      = if m = n then some { c.silence with state := new } else s.circuit m := fun m => by
    rw [circuit_of_set (rfl : (s.changeCircuit n c new reason lost).circuits = s.circuits.set n (some { c.silence with state := new }))]
    simp [circuit_lt hc]
  have hsame : SameOwners s (s.changeCircuit n c new reason lost) := ⟨fun _ => rfl, fun m => by
    rw [hset]
    split
    next hm =>
      rw [hm, hc]
      rfl
    · rfl⟩
  obtain ⟨⟨owned, waited, room, payload, once, hlost, circuits, losses, distinct⟩, fits⟩ := h
  refine ⟨⟨⟨fun d y e he => hsame.entitled (owned d y e he), fun e he => hsame.entitled (waited e he), room, payload, once, hlost,
    fun m c' hc' => ?_, fun p hp => ?_, distinct⟩, fun m c' hm hc' => ?_⟩, by rw [hset, if_pos rfl]⟩
  · rw [hset] at hc'
    split at hc'
    · cases hc'
      exact ⟨sound_of_listed (c := c) rfl (circuits n c hc).1, hnew⟩
    · exact circuits m c' hc'
  · obtain ⟨hpay, hgone, hn, hent⟩ := losses p hp
    exact ⟨hpay, hgone, hn, hent.imp hsame.entitled fun ⟨n, ho, hn⟩ => ⟨n, ho, hsame.none hn⟩⟩
  · rw [hset, if_neg fun he => hm (by rw [he])] at hc'
    obtain ⟨hserved, hwhole, hwaits⟩ := fits m c' hm hc'
    exact ⟨hserved, hwhole, hwaits⟩

/-- The circuit left out fits after all. -/
theorem MapFits.takeIn {n : Nat} {c : Circuit} (h : MapFits s ps (some n)) (hc : s.circuit n = some c)
    (hfits : CircuitFits s ps n c) : MapFits s ps none := by
  refine ⟨h.slots, fun m c' _ hc' => ?_⟩
  by_cases hm : m = n
  · subst hm
    rw [hc] at hc'
    cases hc'
    exact hfits
  · exact h.fits m c' (fun he => hm (Option.some.inj he).symm) hc'

/-- A circuit loses a slot and waits for it (R82). -/
theorem MapFits.circuitLoss {p : Loss} {n : Nat} {c : Circuit} (h : MapFits s (p :: ps) none) (ho : p.entry.owner = .circuit n)
    (hc : s.circuit n = some c) (hroom : s.slots.reclaim.length < 64) :
    MapFits ((s.addReclaim p).circuitSlotLost n c p.slot) ps none := by
  obtain ⟨hpay, hgone, -, hent⟩ := h.slots.losses p List.mem_cons_self
  have hent : s.Entitled p.entry.owner p.entry.prec p.slot.1 p.slot.2 := hent.resolve_right fun ⟨m, hm, hnone⟩ => by
    rw [ho] at hm
    cases hm
    rw [hc] at hnone
    cases hnone
  have hadded := h.addReclaim hent hroom
  rw [ho] at hadded hent hgone
  rw [entitled_circuit_iff] at hent
  obtain ⟨c₀, hc₀, -, hlisted⟩ := hent
  rw [hc] at hc₀
  cases hc₀
  have hown : ∀ o d y, (s.addReclaim p).owns o d y ↔ s.owns o d y := fun o d y =>
    owns_of_mapEntry (by cases d <;> rfl)
  have hwaits : ∀ d, ∀ y ∈ c.slots d, ¬(s.addReclaim p).owns (.circuit n) d y →
      WaitBy (.circuit n) (s.addReclaim p) d y ∨ Pending ps (.circuit n) d y := fun d y hy hno => by
    obtain ⟨e, he, hkey⟩ | ⟨q, hq, hqo, hqs⟩ := (h.fits n c (by simp) hc).waits d y hy fun how => hno ((hown _ _ _).mpr how)
    · exact .inl ⟨e, by simp [State.addReclaim, he], hkey⟩
    · obtain rfl | hq := List.mem_cons.mp hq
      · refine .inl ⟨{ owner := q.entry.owner, dir := q.slot.1, slot := q.slot.2, prec := q.entry.prec }, ?_, ho, ?_, ?_⟩
        · simp [State.addReclaim]
        · rw [hqs]
        · rw [hqs]
      · exact .inr ⟨q, hq, hqo, hqs⟩
  have hnot : ¬(s.addReclaim p).ownsAll n c := fun hall => hgone ((hown _ _ _).mp (hall _ _ hlisted))
  unfold State.circuitSlotLost
  split
  next hd =>
    refine MapFits.takeIn hadded hc ⟨fun hst => ?_, fun hall => absurd hall hnot, hwaits⟩
    simp [Circuit.Served, hd] at hst
  · obtain ⟨hchanged, hself⟩ := MapFits.changeCircuit hadded hc (new := .displaced) (by simp) .slotLost (some p.slot)
    refine hchanged.takeIn hself ⟨fun hst => ?_, fun hall => absurd hall hnot, hwaits⟩
    simp [Circuit.Served] at hst

theorem precs_of_modify {l : Nat} {f : Lane → Lane} (hf : ∀ y, (f y).prec = y.prec) (ht : t.lanes = s.lanes.modify l f)
    (k : Nat) : (t.lanes[k]?).map Lane.prec = (s.lanes[k]?).map Lane.prec := by
  rw [ht, List.getElem?_modify]
  cases s.lanes[k]? with
  | none => rfl
  | some y =>
    by_cases hk : l = k
    · simp [hk, hf]
    · simp [hk]

theorem laneSlotLost_precs (l slot k : Nat) :
    ((s.laneSlotLost l slot).lanes[k]?).map Lane.prec = (s.lanes[k]?).map Lane.prec := by
  unfold State.laneSlotLost
  dsimp only
  split
  · split
    · refine precs_of_modify ?_ (finishThen_lanes l _ _ _ _) k
      exact fun _ => rfl
    · rfl
  · rfl

theorem tellLane_precs (l : Nat) (r : SlotRef) (k : Nat) :
    ((s.tellLane l r).lanes[k]?).map Lane.prec = (s.lanes[k]?).map Lane.prec := by
  unfold State.tellLane
  repeat' split
  · exact laneSlotLost_precs _ _ _
  · rw [show (s.endWindow (.slotsLost r.2)).lanes = s.lanes by simp]
  · rfl
  · rfl

theorem MapFits.takeLoss (hs : s.slots.down.length = 43 ∧ s.slots.up.length = 43) (o : Owner) (prec : Nat) {p : Loss}
    (h : MapFits s (p :: ps) none) : MapFits (State.takeLoss o prec s p) ps none := by
  have hent := (h.slots.losses p List.mem_cons_self).entitled
  unfold State.takeLoss
  dsimp only
  split
  next l ho =>
    have htold : ∀ (u : State) (r : Report), MapFits u ps none → MapFits ((u.report r).tellLane l p.slot) ps none :=
      fun u r h => h.of_eq (by simp) (by simp) (tellLane_precs _ _)
    refine htold _ _ ?_
    split
    next hroom =>
      have hadded := h.addReclaim (hent.resolve_right fun ⟨m, hm, _⟩ => by rw [ho] at hm; cases hm) (of_decide_eq_true hroom)
      rwa [ho] at hadded
    · refine h.skipLoss fun m hm => ?_
      rw [ho] at hm
      cases hm
  next n ho =>
    split
    next hnone =>
      refine h.skipLoss fun m hm => .inr ?_
      rw [ho] at hm
      cases hm
      exact hnone
    next c hc =>
      split
      next hroom => exact h.circuitLoss ho hc (of_decide_eq_true hroom)
      · have hleft : MapFits s ps (some n) := (h.leaveOut n).skipLoss fun m hm => by
          rw [ho] at hm
          cases hm
          exact .inl rfl
        unfold State.closeNoReclaim
        dsimp only
        refine MapFits.removeCircuit ?_ ?_ ?_ fun d y hw => ?_
        · exact hs
        · refine MapFits.of_eq (hleft.dropReclaim (fun e => decide (e.owner = .circuit n)) fun e _ hp m ho => ?_) rfl rfl fun _ => rfl
          have hn := of_decide_eq_true hp
          rw [ho] at hn
          cases hn
          rfl
        · exact hc
        · obtain ⟨e, he, ho, -⟩ := hw
          have hno := (List.mem_filter.mp he).2
          simp [ho] at hno

end

end Sys2Proof.Machine
end

section
/-! SUPPORT. The Slot Map from step to step: what a claim, a LANE.SET, a circuit's opening and its close make of it, and what leaves
it as it is (R65 to R85); O59. -/

namespace Sys2Proof.Machine

section
variable {s t u : State} {ps : List Loss} {x : Option Nat}

/-! ## Claims (R67, R68) -/

theorem mem_losses_iff (s : State) (o : Owner) (rs : List SlotRef) (p : Loss) :
    p ∈ s.losses o rs ↔ p.slot ∈ rs ∧ s.mapEntry p.slot.1 p.slot.2 = some p.entry ∧ p.entry.owner ≠ o := by
  rw [← mem_losses]
  constructor
  · exact fun hp => List.mem_map.mpr ⟨p, hp, rfl⟩
  · intro hp
    obtain ⟨q, hq, he⟩ := List.mem_map.mp hp
    simp only [Prod.mk.injEq] at he
    obtain ⟨hslot, hentry⟩ := he
    have : q = p := by
      cases q
      cases p
      simp_all
    exact this ▸ hq

/-- The slots of a claim become the claimant's at once: the losses are still to be taken (R68 step 1). -/
theorem MapFits.setEntries (hs : s.slots.down.length = 43 ∧ s.slots.up.length = 43) (h : MapFits s [] x) {o : Owner}
    {prec : Nat} {rs : List SlotRef} (hin : ∀ r ∈ rs, 5 ≤ r.2 ∧ r.2 ≤ 47) (hnd : rs.Nodup)
    (hent : ∀ r ∈ rs, s.Entitled o prec r.1 r.2) (hnew : ∀ r ∈ rs, ¬WaitBy o s r.1 r.2)
    (hx : ∀ n, o = .circuit n → x = some n) :
    MapFits (rs.foldl (fun s r => s.setEntry r.1 r.2 (some { owner := o, prec := prec })) s) (s.losses o rs) x := by
  obtain ⟨hmap, -, hreclaim, hlanes, hcircuits⟩ := setEntries_spec o prec rs hin s hs
  generalize rs.foldl (fun s r => s.setEntry r.1 r.2 (some { owner := o, prec := prec })) s = t at hmap hreclaim hlanes hcircuits ⊢
  have hsame : SameOwners s t := .of_eq hlanes hcircuits
  have hcirc := circuit_of_circuits hcircuits
  have howns : ∀ o' d y, t.owns o' d y → ((d, y) ∈ rs ∧ o' = o) ∨ ((d, y) ∉ rs ∧ s.owns o' d y) := by
    rintro o' d y ⟨e, he, ho⟩
    rw [hmap] at he
    split at he
    next hm =>
      cases he
      exact .inl ⟨hm, ho.symm⟩
    next hm => exact .inr ⟨hm, e, he, ho⟩
  have hkept : ∀ o' d y, (d, y) ∉ rs → s.owns o' d y → t.owns o' d y := by
    rintro o' d y hm ⟨e, he, ho⟩
    exact ⟨e, by rw [hmap, if_neg hm, he], ho⟩
  have hpending : ∀ o' d y, o' ≠ o → s.owns o' d y → t.owns o' d y ∨ Pending (s.losses o rs) o' d y := by
    rintro o' d y hne ⟨e, he, ho⟩
    by_cases hm : (d, y) ∈ rs
    · exact .inr ⟨{ slot := (d, y), entry := e }, (mem_losses_iff s o rs _).mpr ⟨hm, he, ho ▸ hne⟩, ho, rfl⟩
    · exact .inl (hkept o' d y hm ⟨e, he, ho⟩)
  have hwait : ∀ o' d y, WaitBy o' t d y ↔ WaitBy o' s d y := fun o' d y => by
    unfold WaitBy
    rw [hreclaim]
  refine ⟨⟨fun d y e he => hsame.entitled ?_, fun e he => hsame.entitled (h.slots.waited e (hreclaim ▸ he)),
    hreclaim ▸ h.slots.room, hreclaim ▸ h.slots.payload, hreclaim ▸ h.slots.once, fun e he how => ?_,
    fun n c hc => h.slots.circuits n c (hcirc n ▸ hc), fun p hp => ?_, ?_⟩, fun n c hn hc => ?_⟩
  · rw [hmap] at he
    split at he
    next hm =>
      cases he
      exact hent _ hm
    · exact h.slots.owned d y e he
  · have he := hreclaim ▸ he
    obtain ⟨hm, ho⟩ | ⟨-, how⟩ := howns _ _ _ how
    · exact hnew _ hm ⟨e, he, ho, rfl, rfl⟩
    · exact h.slots.lost e he how
  · obtain ⟨hm, he, hne⟩ := (mem_losses_iff s o rs p).mp hp
    refine ⟨hin _ hm, fun how => ?_, fun hw => ?_, .inl (hsame.entitled (h.slots.owned _ _ _ he))⟩
    · obtain ⟨-, ho⟩ | ⟨hno, -⟩ := howns _ _ _ how
      · exact hne ho
      · exact hno hm
    · obtain ⟨f, hf, ho, hd, hy⟩ := (hwait _ _ _).mp hw
      refine h.slots.lost f hf ?_
      rw [hd, hy]
      exact ⟨p.entry, he, ho.symm⟩
  · have hsub := losses_slots_sublist s o rs
    rw [List.map_map] at hsub
    exact hnd.sublist hsub
  · have hne : Owner.circuit n ≠ o := fun he => hn (hx n he.symm)
    have hc := hcirc n ▸ hc
    have hnone : ∀ d y, ¬Pending [] (.circuit n) d y := fun d y ⟨p, hp, _⟩ => by cases hp
    obtain ⟨hserved, hwhole, hwaits⟩ := h.fits n c hn hc
    refine ⟨fun hst d y hy => hpending _ _ _ hne ((hserved hst d y hy).resolve_right (hnone d y)), fun hall => ?_,
      fun d y hy hno => ?_⟩
    · refine hwhole fun d y hy => ?_
      obtain ⟨-, ho⟩ | ⟨-, how⟩ := howns _ _ _ (hall d y hy)
      · exact absurd ho hne
      · exact how
    · by_cases how : s.owns (.circuit n) d y
      · exact .inr ((hpending _ _ _ hne how).resolve_left hno)
      · exact .inl ((hwait _ _ _).mpr ((hwaits d y hy how).resolve_right (hnone d y)))

/-- The losses are taken one after the other (R68 step 2). -/
theorem MapFits.takeLosses (o : Owner) (prec : Nat) (hne : ∀ p ∈ ps, p.entry.owner ≠ o)
    (hs : s.slots.down.length = 43 ∧ s.slots.up.length = 43) (h : MapFits s ps none) :
    MapFits (ps.foldl (State.takeLoss o prec) s) [] none := by
  induction ps generalizing s with
  | nil => exact h
  | cons p ps ih =>
    have hlen := (KeepsClaims.takeLoss o prec s p (hne p List.mem_cons_self) hs).len
    exact ih (fun q hq => hne q (List.mem_cons_of_mem p hq)) hlen (h.takeLoss hs o prec)

theorem losses_owner_ne (s : State) (o : Owner) (rs : List SlotRef) : ∀ p ∈ s.losses o rs, p.entry.owner ≠ o :=
  fun p hp => ((mem_losses_iff s o rs p).mp hp).2.2

theorem MapFits.laneClaim (hs : s.slots.down.length = 43 ∧ s.slots.up.length = 43) (h : MapFits s [] none) {l prec : Nat}
    {rs : List SlotRef} (hin : ∀ r ∈ rs, 5 ≤ r.2 ∧ r.2 ≤ 47) (hnd : rs.Nodup)
    (hl : (s.lanes[l]?).map Lane.prec = some prec) (hnew : ∀ r ∈ rs, ¬WaitBy (.lane l) s r.1 r.2) :
    MapFits (s.applyClaim (.lane l) prec rs) [] none := by
  obtain ⟨-, hlen, -, -, -⟩ := setEntries_spec (.lane l) prec rs hin s hs
  refine MapFits.takeLosses _ _ (losses_owner_ne s _ rs) hlen (h.setEntries hs hin hnd (fun r _ => ?_) hnew fun n hn => ?_)
  · exact (entitled_lane_iff _ _ _ _).mpr hl
  · cases hn

/-- A circuit that has just opened claims the slots of both lists (R80). -/
theorem MapFits.circuitClaim (hs : s.slots.down.length = 43 ∧ s.slots.up.length = 43) {n : Nat} {c : Circuit}
    (h : MapFits s [] (some n)) (hc : s.circuit n = some c) (hserved : c.Served)
    (hnew : ∀ d y, ¬WaitBy (.circuit n) s d y) :
    MapFits (s.applyClaim (.circuit n) c.prec (claimSlots c.down c.up)) [] none := by
  have hpay := in_claimSlots c.down c.up
  have hin : ∀ d y, (d, y) ∈ claimSlots c.down c.up ↔ y ∈ c.slots d := fun d y => by
    have hpayload := and_iff_right_of_imp ((h.slots.circuits n c hc).1.payload d y)
    cases d
    · exact (mem_claimSlots _ _ _ _).trans hpayload
    · exact (mem_claimSlots _ _ _ _).trans hpayload
  obtain ⟨hmap, hlen, -, -, hcircuits⟩ := setEntries_spec (.circuit n) c.prec (claimSlots c.down c.up) hpay s hs
  have hset := h.setEntries (o := .circuit n) (prec := c.prec) hs hpay (nodup_claimSlots _ _)
    (fun r hr => (entitled_circuit_iff _ _ _ _).mpr ⟨c, hc, rfl, (hin r.1 r.2).mp hr⟩) (fun r _ => hnew r.1 r.2)
    fun m hm => by
      cases hm
      rfl
  have hall : ∀ d, ∀ y ∈ c.slots d, State.owns ((claimSlots c.down c.up).foldl (fun s r => s.setEntry r.1 r.2
      (some { owner := .circuit n, prec := c.prec })) s) (.circuit n) d y := fun d y hy =>
    ⟨_, by rw [hmap, if_pos ((hin d y).mpr hy)], rfl⟩
  have hfits := hset.takeIn ((circuit_of_circuits hcircuits n).trans hc)
    ⟨fun _ d y hy => .inl (hall d y hy), fun _ => hserved, fun d y hy hno => absurd (hall d y hy) hno⟩
  exact hfits.takeLosses _ _ (losses_owner_ne s _ _) hlen

/-! ## LANE.SET (R76) -/

/-- The lane's entries take its new precedence. -/
theorem MapFits.setPrecedence (h : MapFits s [] none) {l : Nat} (hl : l < s.lanes.length) (prec : Nat) (cut : Bool) :
    MapFits (s.setPrecedence l prec cut) [] none := by
  have hmap := mapEntry_setPrecedence s l prec cut
  have hreclaim : (s.setPrecedence l prec cut).slots.reclaim = s.slots.reclaim.map (ReclaimEntry.atPrec (.lane l) prec) := rfl
  have howns : ∀ o d y, (s.setPrecedence l prec cut).owns o d y ↔ s.owns o d y := fun o d y => by
    unfold State.owns
    rw [hmap]
    simp [MapEntry.atPrec_owner]
  have hown : ∀ k : Nat, ((s.setPrecedence l prec cut).lanes[k]?).map Lane.prec
      = if k = l then some prec else (s.lanes[k]?).map Lane.prec := fun k => by
    show ((s.lanes.modify l _)[k]?).map Lane.prec = _
    rw [List.getElem?_modify]
    by_cases hk : l = k
    · subst hk
      simp [hl]
    · rw [if_neg (Ne.symm hk)]
      simp [hk]
  have hent : ∀ o p d y, s.Entitled o p d y →
      (s.setPrecedence l prec cut).Entitled o (if o = .lane l then prec else p) d y := fun o p d y he => by
    cases o with
    | lane k =>
      rw [entitled_lane_iff] at he ⊢
      rw [hown]
      by_cases hk : k = l <;> simp [hk, he]
    | circuit n =>
      rw [if_neg (by simp)]
      exact he
  have hwait : ∀ o d y, WaitBy o s d y → WaitBy o (s.setPrecedence l prec cut) d y := fun o d y ⟨e, he, ho, hd, hy⟩ => by
    obtain ⟨hko, hkd, hky⟩ := ReclaimEntry.atPrec_keeps (.lane l) prec e
    exact ⟨_, List.mem_map.mpr ⟨e, he, rfl⟩, hko.trans ho, hkd.trans hd, hky.trans hy⟩
  refine ⟨⟨fun d y e he => ?_, fun e he => ?_, ?_, fun e he => ?_, ?_, fun e he how => ?_, h.slots.circuits,
    fun p hp => absurd hp List.not_mem_nil, List.nodup_nil⟩, fun n c hn hc => ?_⟩
  · rw [hmap] at he
    obtain ⟨e₀, he₀, rfl⟩ := Option.map_eq_some_iff.mp he
    have := hent _ _ d y (h.slots.owned d y e₀ he₀)
    unfold MapEntry.atPrec
    split
    next ho => rwa [if_pos ho] at this
    next ho => rwa [if_neg ho] at this
  · obtain ⟨e₀, he₀, rfl⟩ := List.mem_map.mp he
    have := hent _ _ e₀.dir e₀.slot (h.slots.waited e₀ he₀)
    unfold ReclaimEntry.atPrec
    split
    next ho => rwa [if_pos ho] at this
    next ho => rwa [if_neg ho] at this
  · rw [hreclaim, List.length_map]
    exact h.slots.room
  · obtain ⟨e₀, he₀, rfl⟩ := List.mem_map.mp he
    obtain ⟨-, -, hky⟩ := ReclaimEntry.atPrec_keeps (.lane l) prec e₀
    rw [hky]
    exact h.slots.payload e₀ he₀
  · have hkeys : ((s.setPrecedence l prec cut).slots.reclaim.map fun e => (e.owner, e.dir, e.slot))
        = s.slots.reclaim.map fun e => (e.owner, e.dir, e.slot) := by
      rw [hreclaim, List.map_map]
      refine List.map_congr_left fun e _ => ?_
      obtain ⟨hko, hkd, hky⟩ := ReclaimEntry.atPrec_keeps (.lane l) prec e
      simp [hko, hkd, hky]
    exact hkeys ▸ h.slots.once
  · obtain ⟨e₀, he₀, rfl⟩ := List.mem_map.mp he
    obtain ⟨hko, hkd, hky⟩ := ReclaimEntry.atPrec_keeps (.lane l) prec e₀
    rw [hko, hkd, hky, howns] at how
    exact h.slots.lost e₀ he₀ how
  · obtain ⟨hserved, hwhole, hwaits⟩ := h.fits n c hn hc
    exact ⟨fun hst d y hy => (hserved hst d y hy).imp_left (howns _ _ _).mpr,
      fun hall => hwhole fun d y hy => (howns _ _ _).mp (hall d y hy),
      fun d y hy hno => (hwaits d y hy fun how => hno ((howns _ _ _).mpr how)).imp_left (hwait _ _ _)⟩

theorem MapFits.applyLaneSet (hs : Shape s) (h : MapFits s [] none) {l : Nat} (hl : l < 4) (prec : Nat) (cut : Bool)
    (down up : List Nat) : MapFits (s.applyLaneSet l prec cut down up) [] none := by
  have hset := h.setPrecedence (hs.lanes.symm ▸ hl) prec cut
  have hlane : ((s.setPrecedence l prec cut).lanes[l]?).map Lane.prec = some prec := by
    show ((s.lanes.modify l _)[l]?).map Lane.prec = _
    simp [hs.lanes, hl]
  have hlen : (s.setPrecedence l prec cut).slots.down.length = 43 ∧ (s.setPrecedence l prec cut).slots.up.length = 43 := by
    have := Shape.working.setPrecedence l prec cut hs
    exact ⟨this.down, this.up⟩
  have hnew : ∀ r ∈ s.newSlots l down up, ¬WaitBy (.lane l) s r.1 r.2 := fun r hr hw => by
    obtain ⟨d, y⟩ := r
    have hy := ((mem_claimSlots _ _ d y).mp hr).2
    have hno : y ∉ s.claimed (.lane l) d := by
      cases d <;> simpa using (List.mem_filter.mp hy).2
    exact hno (List.mem_append_right _ ((mem_waited s (.lane l) d y).mpr hw))
  have hwait : ∀ d y, WaitBy (.lane l) (s.setPrecedence l prec cut) d y → WaitBy (.lane l) s d y := by
    rintro d y ⟨e, he, ho, hd, hy⟩
    obtain ⟨e₀, he₀, rfl⟩ := List.mem_map.mp he
    obtain ⟨hko, hkd, hky⟩ := ReclaimEntry.atPrec_keeps (.lane l) prec e₀
    exact ⟨e₀, he₀, hko.symm.trans ho, hkd.symm.trans hd, hky.symm.trans hy⟩
  have hclaim : ∀ {v : State}, v.slots.down.length = 43 ∧ v.slots.up.length = 43 → MapFits v [] none →
      (v.lanes[l]?).map Lane.prec = some prec → (∀ d y, WaitBy (.lane l) v d y → WaitBy (.lane l) s d y) →
      MapFits ((v.applyClaim (.lane l) prec (s.newSlots l down up)).freeSlots (.lane l) (s.droppedSlots l down up)) [] none := by
    intro v hv hfits hprec hsub
    obtain ⟨-, -, -, -, -, hlater, -⟩ := applyClaim_spec (.lane l) prec _ (in_claimSlots _ _) v hv
    have hclaimed := hfits.laneClaim hv (in_claimSlots _ _) (nodup_claimSlots _ _) hprec fun r hr hw => hnew r hr (hsub _ _ hw)
    exact hclaimed.freeSlots (.lane l) (fun n hn => by cases hn) _ (in_claimSlots _ _) hlater
  unfold State.applyLaneSet
  refine hclaim ?_ (hset.dropReclaim _ fun e _ hp n ho => ?_) ?_ fun d y hw => hwait d y ?_
  · exact hlen
  · have hlane := (of_decide_eq_true hp).1
    rw [ho] at hlane
    cases hlane
  · exact hlane
  · obtain ⟨e, he, hkey⟩ := hw
    exact ⟨e, List.mem_of_mem_filter he, hkey⟩

/-! ## CIRCUIT.OPEN (R80) -/

/-- A record takes a free number: nothing is its own yet. -/
theorem MapFits.record (h : MapFits s [] none) {n : Nat} (hfree : s.circuit n = none) (hn : n < s.circuits.length) {c : Circuit}
    (hc : c.Sound) (hopen : c.state ≠ .closed) : MapFits (s.setCircuit n (some c)) [] (some n) := by
  have hset : ∀ m, (s.setCircuit n (some c)).circuit m = if m = n then some c else s.circuit m := fun m => by
    rw [circuit_of_set (rfl : (s.setCircuit n (some c)).circuits = s.circuits.set n (some c))]
    simp [hn]
  have hent : ∀ {o prec d y}, s.Entitled o prec d y → (s.setCircuit n (some c)).Entitled o prec d y := by
    intro o prec d y he
    cases o with
    | lane l => exact he
    | circuit m =>
      rw [entitled_circuit_iff] at he ⊢
      obtain ⟨c', hc', he⟩ := he
      have hm : m ≠ n := fun hm => by
        rw [hm, hfree] at hc'
        cases hc'
      exact ⟨c', by rw [hset, if_neg hm, hc'], he⟩
  refine ⟨⟨fun d y e he => hent (h.slots.owned d y e he), fun e he => hent (h.slots.waited e he), h.slots.room, h.slots.payload,
    h.slots.once, h.slots.lost, fun m c' hc' => ?_, fun p hp => absurd hp List.not_mem_nil, List.nodup_nil⟩, fun m c' hm hc' => ?_⟩
  · rw [hset] at hc'
    split at hc'
    · cases hc'
      exact ⟨hc, hopen⟩
    · exact h.slots.circuits m c' hc'
  · rw [hset, if_neg fun he => hm (by rw [he])] at hc'
    obtain ⟨hserved, hwhole, hwaits⟩ := h.fits m c' (by simp) hc'
    exact ⟨hserved, hwhole, hwaits⟩

theorem newCircuit_sound (s : State) {f : CircuitOpenFields} (hr : f.inRange = true)
    (hw : 1 ≤ f.up.length ∧ f.up.length ≤ 4 ∧ f.down.length = f.up.length) : (s.newCircuit f).Sound := by
  have hlists : slotListOk f.up = true ∧ slotListOk f.down = true := by
    unfold CircuitOpenFields.inRange at hr
    simp only [Bool.and_eq_true] at hr
    exact ⟨hr.1.1.2, hr.1.2⟩
  obtain ⟨hup, hdown⟩ := hlists
  rw [slotListOk_iff] at hup hdown
  refine ⟨hw, fun d => ?_, fun d => ?_⟩
  · cases d
    · exact hdown.1
    · exact hup.1
  · cases d
    · exact hdown.2
    · exact hup.2

theorem MapFits.openCircuit (hs : Shape s) (h : MapFits s [] none) {n : Nat} {f : CircuitOpenFields} (hr : f.inRange = true)
    (hw : 1 ≤ f.up.length ∧ f.up.length ≤ 4 ∧ f.down.length = f.up.length) (hn : s.freeCircuit = some n) :
    MapFits (s.openCircuit n f) [] none := by
  have hfree : s.circuit n = none := by simpa using List.find?_some hn
  have hlt : n < s.circuits.length := by
    rw [hs.circuits]
    exact List.mem_range.mp (List.mem_of_find?_eq_some hn)
  have hstate : (s.newCircuit f).state = .live ∨ (s.newCircuit f).state = .muted := by
    unfold State.newCircuit
    dsimp only
    split
    · exact .inl rfl
    · exact .inr rfl
  have hrecord := h.record hfree hlt (newCircuit_sound s hr hw) (by obtain hst | hst := hstate <;> simp [hst])
  unfold State.openCircuit
  refine MapFits.circuitClaim (c := s.newCircuit f) ?_ hrecord ?_ hstate fun d y hwait => ?_
  · exact ⟨hs.down, hs.up⟩
  · rw [circuit_of_set (rfl : (s.setCircuit n (some (s.newCircuit f))).circuits = s.circuits.set n (some (s.newCircuit f))),
      if_pos ⟨rfl, hlt⟩]
  · obtain ⟨e, he, ho, hd, hy⟩ := hwait
    have hent := h.slots.waited e he
    rw [ho, entitled_circuit_iff] at hent
    obtain ⟨c, hc, -⟩ := hent
    rw [hfree] at hc
    cases hc

end

end Sys2Proof.Machine
end

section
/-! SUPPORT. What keeps the Slot Map for want of touching it: a step outside chapter 4 leaves the map, the Reclaim List, the lanes'
precedences and the circuits' lists, and moves a circuit between LIVE and MUTED at most (R81, R83); O59. -/

namespace Sys2Proof.Machine

/-- A circuit's state, LIVE and MUTED taken as one (R82). -/
def CircuitState.unmuted : CircuitState → CircuitState
  | .muted => .live
  | k => k

/-- What of a circuit the Slot Map depends on. -/
def Circuit.kept (c : Circuit) : (List Nat × List Nat × Nat) × CircuitState := (c.listed, c.state.unmuted)

theorem served_iff (c : Circuit) : c.Served ↔ c.state.unmuted = .live := by
  unfold Circuit.Served
  cases c.state <;> simp [CircuitState.unmuted]

theorem closed_iff (k : CircuitState) : k = .closed ↔ k.unmuted = .closed := by
  cases k <;> simp [CircuitState.unmuted]

/-- The map and the Reclaim List are the same, and so is what they depend on in the lanes and the circuits. -/
structure MapKept (s t : State) : Prop where
  slots : t.slots = s.slots
  precs : ∀ l : Nat, (t.lanes[l]?).map Lane.prec = (s.lanes[l]?).map Lane.prec
  circuits : ∀ n, (t.circuit n).map Circuit.kept = (s.circuit n).map Circuit.kept

section
variable {s t u : State}

theorem MapKept.refl (s : State) : MapKept s s := ⟨rfl, fun _ => rfl, fun _ => rfl⟩

theorem MapKept.trans (h : MapKept s t) (k : MapKept t u) : MapKept s u :=
  ⟨k.slots.trans h.slots, fun l => (k.precs l).trans (h.precs l), fun n => (k.circuits n).trans (h.circuits n)⟩

theorem MapKept.of_frame (slots : t.slots = s.slots) (lanes : t.lanes = s.lanes) (circuits : t.circuits = s.circuits) :
    MapKept s t :=
  ⟨slots, fun _ => by rw [lanes], fun n => by rw [circuit_of_circuits circuits]⟩

/-- A lane's record changes, its precedence apart. -/
theorem MapKept.of_lane {l : Nat} {f : Lane → Lane} (hf : ∀ y, (f y).prec = y.prec) (lanes : t.lanes = s.lanes.modify l f)
    (slots : t.slots = s.slots) (circuits : t.circuits = s.circuits) : MapKept s t :=
  ⟨slots, precs_of_modify hf lanes, fun n => by rw [circuit_of_circuits circuits]⟩

/-- Every circuit's record changes, its lists and its state apart. -/
theorem MapKept.of_circuits {f : Circuit → Circuit} (hf : ∀ c, (f c).kept = c.kept)
    (circuits : t.circuits = s.circuits.map (Option.map f)) (slots : t.slots = s.slots) (lanes : t.lanes = s.lanes) :
    MapKept s t := by
  refine ⟨slots, fun _ => by rw [lanes], fun n => ?_⟩
  unfold State.circuit
  rw [circuits, List.getElem?_map]
  cases s.circuits[n]? with
  | none => rfl
  | some o =>
    cases o with
    | none => rfl
    | some c => exact congrArg some (hf c)

/-- One circuit's record changes, its lists and its state apart. -/
theorem MapKept.of_circuit {n : Nat} {c c' : Circuit} (hc : s.circuit n = some c) (hk : c'.kept = c.kept)
    (circuits : t.circuits = s.circuits.set n (some c')) (slots : t.slots = s.slots) (lanes : t.lanes = s.lanes) :
    MapKept s t := by
  refine ⟨slots, fun _ => by rw [lanes], fun m => ?_⟩
  rw [circuit_of_set circuits]
  split
  next hm =>
    rw [hm.1, hc]
    exact congrArg some hk
  · rfl

theorem MapSound.of_kept (h : MapSound s) (k : MapKept s t) : MapSound t := by
  have hcircuit : ∀ n c, t.circuit n = some c → ∃ c', s.circuit n = some c' ∧ c'.kept = c.kept := fun n c hc => by
    have := k.circuits n
    rw [hc] at this
    exact Option.map_eq_some_iff.mp this.symm
  have hsame : SameOwners s t := by
    refine ⟨k.precs, fun n => ?_⟩
    have := congrArg (Option.map Prod.fst) (k.circuits n)
    rwa [Option.map_map, Option.map_map] at this
  have howns : ∀ o d y, t.owns o d y ↔ s.owns o d y := owns_slots k.slots
  have hslots := k.slots
  refine ⟨fun d y e he => hsame.entitled (h.owned d y e (mapEntry_of_slots hslots d y ▸ he)),
    fun e he => hsame.entitled (h.waited e (hslots ▸ he)), hslots ▸ h.room, hslots ▸ h.payload, hslots ▸ h.once,
    fun e he how => h.lost e (hslots ▸ he) ((howns _ _ _).mp how), fun n c hc => ?_, fun n c hc => ?_, fun n c hc d y hy hno => ?_⟩
  all_goals
    obtain ⟨c', hc', hk⟩ := hcircuit n c hc
    simp only [Circuit.kept, Prod.mk.injEq] at hk
    obtain ⟨hlisted, hstate⟩ := hk
  · obtain ⟨hsound, hopen⟩ := h.circuits n c' hc'
    refine ⟨sound_of_listed hlisted.symm hsound, fun hclosed => hopen ?_⟩
    rw [closed_iff] at hclosed ⊢
    exact hstate.trans hclosed
  · have hall : t.ownsAll n c ↔ s.ownsAll n c' := by
      unfold State.ownsAll
      simp only [howns, slots_of_listed hlisted]
    have hserved : c.Served ↔ c'.Served := by rw [served_iff, served_iff, hstate]
    exact (hserved.trans (h.whole n c' hc')).trans hall.symm
  · rw [hslots]
    exact h.displaced n c' hc' d y (slots_of_listed hlisted d ▸ hy) fun how => hno ((howns _ _ _).mpr how)

theorem MapSound.of_frame (h : MapSound s) (slots : t.slots = s.slots) (lanes : t.lanes = s.lanes)
    (circuits : t.circuits = s.circuits) : MapSound t :=
  h.of_kept (.of_frame slots lanes circuits)

/-! ## Circuits (R81, R83) -/

theorem MapKept.changeCircuits (h : MapKept s t) (p : Circuit → Bool) (new : CircuitState) (reason : CircuitReason)
    (hp : ∀ c, p c = true → new.unmuted = c.state.unmuted) : MapKept s (t.changeCircuits p new reason) := by
  refine List.foldlRecOn (motive := MapKept s) _ _ h fun v hv n _ => ?_
  repeat' split
  next c hc hpc =>
    refine hv.trans (.of_circuit (c' := { c.silence with state := new }) hc ?_ rfl rfl rfl)
    exact Prod.ext rfl (hp c hpc)
  · exact hv
  · exact hv

theorem MapKept.sourceOnline (h : MapKept s t) (a : Nat) : MapKept s (t.sourceOnline a) :=
  h.changeCircuits _ _ _ fun c hc => by
    obtain ⟨-, hst⟩ := of_decide_eq_true hc
    rw [hst]
    rfl

theorem MapKept.sourceLeft (h : MapKept s t) (a : Nat) : MapKept s (t.sourceLeft a) :=
  h.changeCircuits _ _ _ fun c hc => by
    obtain ⟨-, hst⟩ := of_decide_eq_true hc
    rw [hst]
    rfl

theorem MapKept.muteSourceless (h : MapKept s t) : MapKept s t.muteSourceless :=
  h.changeCircuits _ _ _ fun c hc => by
    have hst := of_decide_eq_true ((Bool.and_eq_true _ _).mp hc).1
    rw [hst]
    rfl

theorem MapKept.silenceCircuits (h : MapKept s t) : MapKept s t.silenceCircuits := by
  refine h.trans (.of_circuits (f := Circuit.silence) ?_ rfl rfl rfl)
  exact fun _ => rfl

theorem shift_kept (c : Circuit) : c.shift.kept = c.kept := by
  unfold Circuit.shift
  split <;> rfl

theorem collect_kept (c : Circuit) (slot : Nat) (o : Octet) : (c.collect slot o).kept = c.kept := by
  unfold Circuit.collect
  split <;> rfl

/-! ## Lanes (R125 to R130, R135) -/

theorem MapKept.finishThen (h : MapKept s t) (l : Nat) (p : Packet) (o : PacketOutcome) (r : Option PacketReason)
    (f : Lane → Lane) (hf : ∀ y, (f y).prec = y.prec) : MapKept s ((t.finishPacket l p o r).modLane l f) := by
  refine h.trans (.of_lane ?_ (finishThen_lanes l p o r f) (by simp) (by simp))
  exact fun _ => hf _

theorem MapKept.modLane (h : MapKept s t) (l : Nat) (f : Lane → Lane) (hf : ∀ y, (f y).prec = y.prec) :
    MapKept s (t.modLane l f) :=
  h.trans (.of_lane hf rfl rfl rfl)

theorem MapKept.finishPacket (h : MapKept s t) (l : Nat) (p : Packet) (o : PacketOutcome) (r : Option PacketReason) :
    MapKept s (t.finishPacket l p o r) :=
  h.trans (.of_lane (l := l) (f := fun x => { x with queue := x.queue.filter fun q => q.handle != p.handle }) (fun _ => rfl) rfl
    (by simp) (by simp))

theorem MapKept.stopLanes (h : MapKept s t) : MapKept s t.stopLanes := by
  refine List.foldlRecOn (motive := MapKept s) _ _ h fun v hv l _ => ?_
  unfold State.stopLane
  dsimp only
  repeat' split
  · exact hv.finishThen _ _ _ _ _ fun _ => rfl
  · exact hv.modLane _ _ fun _ => rfl
  · exact hv.modLane _ _ fun _ => rfl

theorem tryStart_prec (x : Lane) (held : List Nat) : (x.tryStart held).prec = x.prec := by
  unfold Lane.tryStart
  repeat' split
  all_goals rfl

theorem atCycleStart_prec (x : Lane) (held : List Nat) : (x.atCycleStart held).prec = x.prec := by
  unfold Lane.atCycleStart
  rw [tryStart_prec]
  split <;> rfl

theorem MapKept.startLanes (h : MapKept s t) : MapKept s t.startLanes := by
  refine h.trans ⟨rfl, fun l => ?_, fun _ => rfl⟩
  show ((t.lanes.mapIdx _)[l]?).map Lane.prec = _
  rw [List.getElem?_mapIdx, Option.map_map]
  exact congrArg (fun f => Option.map f t.lanes[l]?) (funext fun x => atCycleStart_prec x _)

theorem MapKept.abortTurn (h : MapKept s t) (l : Nat) (p : Packet) : MapKept s (t.abortTurn l p).2 := by
  unfold State.abortTurn
  dsimp only
  repeat' split
  iterate 3 exact h.modLane _ _ fun _ => rfl
  exact h.finishThen _ _ _ _ _ fun _ => rfl

theorem MapKept.sendTurn (h : MapKept s t) (l : Nat) (p : Packet) : MapKept s (t.sendTurn l p).2 := by
  unfold State.sendTurn
  dsimp only
  repeat' split
  iterate 2 exact h.modLane _ _ fun _ => rfl
  · refine MapKept.abortTurn (h.modLane _ _ ?_) _ _
    exact fun _ => rfl
  · exact h.modLane _ _ fun _ => rfl
  · exact h.finishThen _ _ _ _ _ fun _ => rfl

theorem MapKept.laneTurn (h : MapKept s t) (l slot : Nat) : MapKept s (t.laneTurn l slot).2 := by
  unfold State.laneTurn
  dsimp only
  repeat' split
  · exact h.sendTurn _ _
  · exact h
  · exact h.abortTurn _ _
  · exact h
  · exact h.modLane _ _ fun _ => rfl
  all_goals exact h

theorem MapKept.resetLane (h : MapKept s t) (l : Nat) : MapKept s (t.resetLane l) := by
  unfold State.resetLane
  refine MapKept.modLane ?_ _ _ fun _ => rfl
  refine List.foldlRecOn (motive := MapKept s) _ _ h fun v hv p _ => ?_
  exact hv.finishPacket _ _ _ _

/-! ## Stations and the line -/

/-- What changes neither the map nor a lane or a circuit. -/
theorem MapKept.frame (h : MapKept s t) (slots : u.slots = t.slots) (lanes : u.lanes = t.lanes)
    (circuits : u.circuits = t.circuits) : MapKept s u :=
  h.trans (.of_frame slots lanes circuits)

theorem MapKept.modStation (h : MapKept s t) (a : Nat) (f : Station → Station) : MapKept s (t.modStation a f) :=
  h.frame (by simp) (by simp) (by simp)

theorem MapKept.leaveOnline (h : MapKept s t) (a : Nat) (new : StationState) (reason : StationReason) :
    MapKept s (t.leaveOnline a new reason) := by
  unfold State.leaveOnline
  refine MapKept.sourceLeft (h.frame ?_ ?_ ?_) a
  all_goals simp

theorem MapKept.departs (h : MapKept s t) (a : Nat) (on : Bool) (new : StationState) (reason : StationReason) :
    MapKept s (t.departs a on new reason) := by
  unfold State.departs
  split
  · exact h.leaveOnline _ _ _
  · exact h.frame (by simp) (by simp) (by simp)

theorem MapKept.missOnline (h : MapKept s t) (a : Nat) (malformed : Bool) : MapKept s (t.missOnline a malformed) := by
  unfold State.missOnline
  dsimp only
  split
  · refine MapKept.leaveOnline (h.frame ?_ ?_ ?_) _ _ _
    all_goals simp
  · exact h.frame (by simp) (by simp) (by simp)

theorem MapKept.becomeOnline (h : MapKept s t) (a code : Nat) (request : Bool) : MapKept s (t.becomeOnline a code request) := by
  have hjoined : MapKept s
      (((t.modStation a fun t => { t with state := .online, missCount := 0 }).reportStation a .online .joining
        .answered).sourceOnline a) := by
    refine MapKept.sourceOnline (h.frame ?_ ?_ ?_) a
    all_goals simp
  unfold State.becomeOnline
  dsimp only
  split
  · exact hjoined.frame (by simp) (by simp) (by simp)
  · exact hjoined.frame (by simp) (by simp) (by simp)

theorem MapKept.ringValid (h : MapKept s t) (a code : Nat) (echo request busy : Bool) :
    MapKept s (t.ringValid a code echo request busy) := by
  unfold State.ringValid
  split
  iterate 2 exact h.frame (by simp) (by simp) (by simp)
  · exact h.becomeOnline _ _ _
  · exact h.frame (by simp) (by simp) (by simp)
  all_goals exact h

theorem MapKept.ringMiss (h : MapKept s t) (a : Nat) (malformed : Bool) : MapKept s (t.ringMiss a malformed) := by
  unfold State.ringMiss
  split
  · exact h.missOnline _ _
  iterate 3 exact h.frame (by simp) (by simp) (by simp)
  all_goals exact h

theorem MapKept.countQuiet (h : MapKept s t) : MapKept s t.countQuiet := h.frame (by simp) (by simp) (by simp)

theorem MapKept.judgeAnswer (h : MapKept s t) (o : Octet) : MapKept s (t.judgeAnswer o) := by
  unfold State.judgeAnswer
  split
  · exact h
  · unfold State.ringAnswer
    repeat' split
    · exact (h.ringMiss _ false).countQuiet
    · exact (h.ringMiss _ true).countQuiet
    · exact (h.ringValid _ _ _ _ _).frame rfl rfl rfl
    · exact h
  · exact h.frame (by simp) (by simp) (by simp)

theorem MapKept.judgeBid (h : MapKept s t) (b : Bid) : MapKept s (t.judgeBid b) := by
  unfold State.judgeBid
  repeat' split
  · exact h
  · exact h.frame rfl rfl rfl
  · exact h.frame (by simp) (by simp) (by simp)
  · exact h.frame rfl rfl rfl

theorem MapKept.windowDown (h : MapKept s t) : MapKept s t.windowDown := h.frame (by simp) (by simp) (by simp)

theorem MapKept.lineDown (h : MapKept s t) : MapKept s t.lineDown := by
  have hnotes : MapKept s t.stationsDown.stopNotes := h.frame (by simp) (by simp) (by simp)
  have hstopped : MapKept s t.stationsDown.stopNotes.windowDown.stopLanes := hnotes.windowDown.stopLanes
  exact hstopped.silenceCircuits

theorem MapKept.stopLine (h : MapKept s t) : MapKept s t.stopLine := by
  unfold State.stopLine
  dsimp only
  split
  · refine MapKept.lineDown (h.frame ?_ ?_ ?_)
    all_goals rfl
  · exact h.frame rfl rfl rfl

theorem MapKept.faultLine (h : MapKept s t) : MapKept s t.faultLine := by
  unfold State.faultLine
  dsimp only
  split
  · refine MapKept.lineDown (h.frame ?_ ?_ ?_)
    all_goals rfl
  · exact h.frame rfl rfl rfl

theorem MapKept.endCycle (h : MapKept s t) (good : Bool) : MapKept s (t.endCycle good) := by
  unfold State.endCycle
  dsimp only
  repeat' split
  · exact h.frame rfl rfl rfl
  · refine MapKept.faultLine (h.frame ?_ ?_ ?_)
    all_goals rfl
  · exact h.frame rfl rfl rfl

theorem MapKept.runningStart (h : MapKept s t) : MapKept s t.runningStart := by
  have hshift : MapKept s t.windowTick.chooseCall.makeCall.grant.shiftCircuits := by
    refine MapKept.trans (t := t.windowTick.chooseCall.makeCall.grant) (h.frame ?_ ?_ ?_)
      (.of_circuits shift_kept rfl rfl rfl)
    all_goals simp
  exact hshift.startLanes.frame rfl rfl rfl

theorem MapKept.startCycle (h : MapKept s t) : MapKept s t.startCycle := by
  unfold State.startCycle
  repeat' split
  · refine MapKept.runningStart (MapKept.muteSourceless (h.frame ?_ ?_ ?_))
    all_goals rfl
  · refine MapKept.runningStart (h.frame ?_ ?_ ?_)
    all_goals rfl
  · exact h.frame rfl rfl rfl

/-! ## Steps -/

theorem MapSound.of_requestWork (hs : Shape s) (h : MapSound s) (hw : RequestWork s t) : MapSound t := by
  have hfits := (mapSound_iff s).mp h
  cases hw with
  | unchanged => exact h
  | lineStop _ => exact h.of_kept (.stopLine (.refl s))
  | stationWithdraw a _ _ =>
    refine h.of_kept (.modStation (.departs (.modStation (.refl s) _ _) _ _ _ _) _ _)
  | stationBar a _ _ =>
    exact h.of_kept (.departs (.modStation (.refl s) _ _) _ _ _ _)
  | laneSet f cut hr _ _ =>
    refine (mapSound_iff _).mpr (hfits.applyLaneSet hs ?_ _ _ _ _)
    unfold LaneSetFields.inRange at hr
    simp only [Bool.and_eq_true, decide_eq_true_eq] at hr
    exact hr.1.1.1.1
  | circuitOpen n f hr hwidth hn _ => exact (mapSound_iff _).mpr (hfits.openCircuit hs hr hwidth hn)
  | circuitClose n c hc => exact (mapSound_iff _).mpr (hfits.closeCircuit ⟨hs.down, hs.up⟩ hc)
  | packetSend f _ _ _ =>
    refine h.of_kept (.of_lane (l := f.lane) (f := fun x => { x with queue := x.queue ++ [s.newPacket f] }) ?_ rfl rfl rfl)
    exact fun _ => rfl
  | packetAdd x l p segment _ _ _ => exact h.of_kept (.modLane (.refl s) _ _ fun _ => rfl)
  | packetCancel x l p _ _ => exact h.of_kept (.finishPacket (.refl s) _ _ _ _)
  | packetAbort x l p _ _ =>
    refine h.of_kept (.of_lane ?_ (cancelSending_lanes l p) rfl rfl)
    exact fun _ => rfl
  | laneReset l _ => exact h.of_kept (.resetLane (.refl s) l)
  | lineStart _ => exact h.of_frame rfl rfl rfl
  | lineSet x => exact h.of_frame rfl rfl rfl
  | noteSend a octets _ _ => exact h.of_frame rfl rfl rfl
  | mailboxSet m f => exact h.of_frame rfl rfl rfl
  | mailboxTake m r rest _ _ => exact h.of_frame rfl rfl rfl
  | mailboxFlush m _ => exact h.of_frame rfl rfl rfl
  | reportAck i _ => exact h.of_frame rfl rfl rfl
  | reportResend => exact h.of_frame rfl rfl rfl
  | hold x => exact h.of_frame rfl rfl rfl
  | _ => exact h.of_frame (by simp) (by simp) (by simp)

theorem MapSound.of_lineWork (h : MapSound s) (hw : LineWork s t) : MapSound t := by
  cases hw with
  | cycleStart _ => exact h.of_kept (.startCycle (.refl s))
  | cycleEnd good _ => exact h.of_kept (.endCycle (.refl s) good)
  | answer o _ => exact h.of_kept (.judgeAnswer (.refl s) o)
  | bid b _ => exact h.of_kept (.judgeBid (.refl s) b)
  | windowOctet slot o w _ => exact h.of_frame (by simp) (by simp) (by simp)
  | circuitOctet slot n o c hc => exact h.of_kept (.of_circuit hc (collect_kept c slot o) rfl rfl rfl)
  | drive slot o => exact h.of_frame rfl rfl rfl
  | laneTurn l slot _ => exact (h.of_kept (.laneTurn (.refl s) l slot)).of_frame rfl rfl rfl

theorem MapSound.fresh (cause : RestartCause) (rate : Nat) : MapSound (State.fresh cause rate) := by
  have hmap : ∀ d x, (State.fresh cause rate).mapEntry d x = none := fun d x => by
    have hside : (State.fresh cause rate).slots.side d = List.replicate Config.payloadSlots none := by cases d <;> rfl
    unfold State.mapEntry atSlot
    rw [hside, List.getElem?_replicate]
    repeat' split
    all_goals rfl
  have hcircuit : ∀ n, (State.fresh cause rate).circuit n = none := fun n => by
    show ((List.replicate Config.circuits none)[n]?).join = none
    rw [List.getElem?_replicate]
    split
    · rfl
    · rfl
  refine ⟨fun d x e he => ?_, fun e he => absurd he List.not_mem_nil, Nat.zero_le _, fun e he => absurd he List.not_mem_nil,
    List.nodup_nil, fun e he => absurd he List.not_mem_nil, fun n c hc => ?_, fun n c hc => ?_, fun n c hc => ?_⟩
  · rw [hmap] at he
    cases he
  all_goals
    rw [hcircuit] at hc
    cases hc

/-- Settles O59: the losses of a claim are taken one by one, a freed slot goes to the entry that waited for it, and nothing else touches
what the Slot Map depends on. -/
theorem stepKeepsMapSound : Obligations.StepKeepsMapSound := fun _ _ hs h hstep =>
  And.right <| step_keeps_blocks (fun s => Shape s ∧ MapSound s)
    (fun _ _ k h => ⟨h.1.of_blocksKept k, h.2.of_frame k.slots k.lanes k.circuits⟩) (fun _ _ => ⟨.fresh _ _, .fresh _ _⟩)
    (fun _ h => ⟨Shape.working.release h.1, h.2.of_frame rfl rfl rfl⟩)
    (fun _ _ h hw => ⟨Shape.working.of_requestWork h.1 hw, h.2.of_requestWork h.1 hw⟩)
    (fun _ _ h hw => ⟨Shape.working.of_lineWork h.1 hw, h.2.of_lineWork hw⟩) ⟨hs, h⟩ hstep

end

end Sys2Proof.Machine
end

section
/-! SUPPORT. The state after reset: the fresh state with PART_READY on its way out (R172); O60. -/

namespace Sys2Proof.Machine

/-- After reset PART_READY alone is sent and kept for its acknowledgement (R172, R175). -/
theorem reportsSound_reset : ReportsSound State.reset where
  total := by decide
  window := by decide
  numbers := fun i r hr => by
    cases i with
    | zero =>
      cases hr
      rfl
    | succ i => cases hr
  resend := List.nil_suffix
  settled := .inr ⟨rfl, rfl⟩

/-- After reset the transmitter is busy with PART_READY (R172). -/
theorem linkSound_reset : LinkSound State.reset where
  intake := Nat.zero_le _
  replies := Nat.zero_le _
  sending := fun h => by cases h
  silent := fun h => by
    obtain h | h := h
    · exact absurd rfl h
    · cases h
  idle := fun _ _ h => by cases h
  held := fun h => absurd rfl h
  finishing := fun h => absurd rfl h

/-- Settles O60: the blocks have their fresh values, and only the report unit and the host link differ from them. -/
theorem invariantsHoldAtReset : Obligations.InvariantsHoldAtReset := by
  have hshape := Shape.fresh .powerOn 0
  have hlive := LiveHandles.fresh .powerOn 0
  have hpool := PoolSound.fresh .powerOn 0
  have hwindow := WindowSound.fresh .powerOn 0
  refine ⟨?_, ?_, ?_, reportsSound_reset, linkSound_reset, LanesSound.fresh .powerOn 0, ?_,
    (MapSound.fresh .powerOn 0).of_frame rfl rfl rfl⟩
  · exact hshape.of_tables rfl rfl rfl rfl rfl rfl
  · exact ⟨hlive.notes, hlive.packets, hlive.places, hlive.stations⟩
  · exact ⟨hpool.total, hpool.mailbox⟩
  · exact hwindow.of_kept (.of_frame rfl rfl rfl rfl)

end Sys2Proof.Machine
end

section
/-! SUPPORT. What a request's answer gives, for the requests and the events of the host link (R158 to R172), and the resets; O1 to O7. -/

namespace Sys2Proof.Machine

section
variable {c : Instr} {s : State} {f : Frame} {work : State → Answered}

/-- A request that is answered and changes nothing else (R164). -/
theorem gives_unchanged {r : Result} {fields : List Octet} (he : exec c s = serve f work s) (h : CanTake s f)
    (hw : work s.afterTaking = answer s.afterTaking r fields) :
    Gives c s (s.replied (replyKind f.kind) f.tag (r.code :: fields)) :=
  gives_of_reply f work s.afterTaking _ he h hw rfl

/-- A request whose work is not the host link's, and its answer (R164). -/
theorem gives_changed {v v' : State} {r : Result} {fields : List Octet} (he : exec c s = serve f work s) (h : CanTake s f)
    (hw : work s.afterTaking = answer v' r fields) (hl : v'.link = s.afterTaking.link)
    (hv : { v' with link := s.link } = v) : Gives c s (v.replied (replyKind f.kind) f.tag (r.code :: fields)) :=
  hv ▸ gives_of_reply f work v' _ he h hw hl

theorem modStation_withLink (s : State) (l : HostLink) (a : Nat) (g : Station → Station) :
    { s.modStation a g with link := l } = State.modStation { s with link := l } a g := by
  cases a <;> rfl

/-- The choice at the end of a frame (R166). -/
theorem startNext_nextFrame (s : State) : NextFrame { s with link := { s.link with tx := .idle } } s.startNext := by
  unfold State.startNext
  dsimp only
  split
  next hreplies => exact NextFrame.of_reply _ (by simpa using hreplies)
  next hreplies =>
    have hnone : s.link.replies = [] := by simpa using hreplies
    split
    next havailable => exact NextFrame.of_report _ hnone havailable
    next havailable => exact NextFrame.of_nothing _ hnone (by simpa using havailable)

end

/-- Settles O1: the two cases of `step`. -/
theorem stepTakesFrontCommand : Obligations.StepTakesFrontCommand := by
  refine ⟨fun _ _ => rfl, fun s hs => ?_⟩
  unfold step
  rw [hs]

/-- Settles O2: the reset values are closed terms. -/
theorem resetStateValues : Obligations.ResetStateValues := by
  unfold Obligations.ResetStateValues
  refine ⟨rfl, rfl, rfl, rfl, rfl, rfl, rfl, rfl, ⟨rfl, rfl, rfl⟩, rfl, rfl, rfl, rfl, rfl, rfl, rfl⟩

/-! ## Resets (R172) -/

/-- After a reset with the pin high the idle transmitter starts PART_READY (log entry 8). -/
theorem arbitrate_resetBlocks (s : State) (cause : RestartCause) (rate : Nat) : (s.resetBlocks cause rate).arbitrate =
    { State.reset with
      rep := { State.reset.rep with window := [{ seq := 0#8, report := .partReady cause }] }
      link :=
        { State.reset.link with
          rate := rate, tx := .report (SentReport.frame { seq := 0#8, report := .partReady cause }) }
      choices := s.choices, pending := s.pending } := rfl

/-- Settles O3: the cases of the three commands, by the pin. -/
theorem resetsGiveResetState : Obligations.ResetsGiveResetState := by
  intro s
  refine ⟨fun h => ?_, fun c h => ?_, fun h => ?_, fun c h => ?_, fun c h => ?_, fun h => ?_⟩
  · show execPowerOn s = _
    rw [execPowerOn, h]
    exact congrArg Host.Outcome.next (arbitrate_resetBlocks s .powerOn 0)
  · show execPowerOn s = _
    rw [execPowerOn, h]
    rfl
  · show execResetPinAssert s = _
    rw [execResetPinAssert, h]
    rfl
  · show execResetPinAssert s = _
    rw [execResetPinAssert, h]
  · show execResetPinRelease s = _
    rw [execResetPinRelease, h]
    exact congrArg Host.Outcome.next (arbitrate_resetBlocks s c 0)
  · show execResetPinRelease s = _
    rw [execResetPinRelease, h]

/-! ## LINK.HELLO, LINK.SET and DEVICE.RESTART (R169 to R171) -/

theorem helloFields_octets (rate : Nat) : helloFields rate =
    [0x04#8, 0x30#8, 0x01#8, BitVec.ofNat 8 rate, 30#8, 48#8, 43#8, 4#8, 16#8, 12#8, 4#8, 8#8, 8#8, 0x01#8, 0x00#8, 32#8,
      0x02#8, 0x00#8, 32#8, 4#8, 16#8, 64#8, 64#8, 8#8, 96#8, 4#8, 4#8, 0x02#8, 0x30#8] := by
  delta helloFields
  simp only [o8, o16, List.cons_append, List.nil_append]
  rfl

/-- Settles O5: the fields of the reply are the capacities' octets. -/
theorem helloAnswersIdentity : Obligations.HelloAnswersIdentity := fun s tag h => by
  rw [← helloFields_octets]
  exact gives_unchanged (work := linkHello []) (r := .ok) rfl h rfl

theorem heldReplyOut_of {s : State} {r : Frame} {x : Hold} (hpin : s.pin = .high) (htx : s.link.tx = .reply)
    (hreplies : s.link.replies = [r]) (hhold : s.link.hold = some x) : s.heldReplyOut = some x := by
  unfold State.heldReplyOut
  rw [if_pos ⟨hpin, htx, by rw [hreplies]; rfl⟩, hhold]

theorem exec_txFrameEnd {s : State} (hpin : s.pin = .high) : exec .txFrameEnd s = .next s.frameEnd := if_pos hpin

/-- Settles O6: the three answers of LINK.SET, and the end of the held one's reply. -/
theorem rateChangesAfterReply : Obligations.RateChangesAfterReply := by
  intro s
  refine ⟨fun tag code h => ⟨fun hout => ?_, fun hin hsame => ?_, fun hin hother => ?_⟩, fun r code hpin htx hreplies hhold c hc => ?_,
    fun hno => ?_⟩
  · refine gives_unchanged (work := linkSet [code]) (r := .badArg) rfl h ?_
    exact if_pos hout
  · have hrate : [code] = o8 s.link.rate := by rw [← hsame, o8, BitVec.ofNat_toNat, BitVec.setWidth_eq]
    have hw : linkSet [code] s.afterTaking = answer s.afterTaking .ok [code] :=
      ((if_neg (Nat.not_le_of_lt hin)).trans (if_pos hsame)).trans (congrArg (fun x => answer s.afterTaking .ok x) hrate.symm)
    exact gives_unchanged rfl h hw
  · refine gives_of_serve _ (linkSet [code]) _ rfl h ?_
    have hw : linkSet [code] s.afterTaking
        = answer { s.afterTaking with link := { s.afterTaking.link with hold := some (.linkSet code.toNat) } } .ok (o8 code.toNat) :=
      (if_neg (Nat.not_le_of_lt hin)).trans (if_neg hother)
    rw [hw, o8, BitVec.ofNat_toNat, BitVec.setWidth_eq]
    rfl
  · have hheld := heldReplyOut_of hpin htx hreplies hhold
    have hnext := startNext_nextFrame (s.popReply.changeRate code)
    have hpop : s.popReply.link.replies = [] := by
      show s.link.replies.tail = []
      rw [hreplies]
      rfl
    refine ⟨(s.popReply.changeRate code).startNext, ?_, ?_⟩
    · obtain rfl | rfl := hc
      · show execRateChange s = _
        rw [execRateChange, hheld]
      · rw [exec_txFrameEnd hpin, frameEnd_of_held hheld]
        rfl
    · have hlink : (s.popReply.changeRate code).link.replies = [] := hpop
      have hstate : ({ s.popReply.changeRate code with link := { (s.popReply.changeRate code).link with tx := .idle } } : State)
          = { s with
              link :=
                { s.link with
                  rate := code, framer := { state := .hunt, escape := false, buffer := [] }, hold := none
                  replies := s.popReply.link.replies, tx := .idle } } := rfl
      rw [hstate, hpop] at hnext
      exact hnext
  · show execRateChange s = _
    unfold execRateChange
    split
    next code hheld =>
      obtain ⟨hpin, htx, hlen, hhold⟩ := heldReplyOut_eq_some hheld
      exact absurd ⟨hpin, htx, hlen, code, hhold⟩ hno
    all_goals rfl

/-- Settles O7: the answer of DEVICE.RESTART, and the end of its reply. -/
theorem restartTakesEffectAfterReply : Obligations.RestartTakesEffectAfterReply := by
  intro s
  refine ⟨fun tag h => ?_, fun r hpin htx hreplies hhold c hc => ?_, fun hno => ?_⟩
  · exact gives_of_serve _ (deviceRestart []) _ rfl h rfl
  · have hheld := heldReplyOut_of hpin htx hreplies hhold
    obtain rfl | rfl := hc
    · show execRestartTakesEffect s = _
      rw [execRestartTakesEffect, hheld]
      rfl
    · rw [exec_txFrameEnd hpin, frameEnd_of_held hheld]
      rfl
  · show execRestartTakesEffect s = _
    unfold execRestartTakesEffect
    split
    next hheld => exact absurd (heldReplyOut_eq_some hheld) hno
    all_goals rfl

end Sys2Proof.Machine
end

section
/-! SUPPORT. Every request is served by its owner's work, whose answer starts with a result code, and which refuses a body of the wrong
size (R164, 11.4); O4. -/

namespace Sys2Proof.Machine

/-- The command serves the request `f` by `work`: the answer is a result code and fields, and a body that fails the size test is BAD_ARG
(R164). -/
structure Serves (c : Instr) (f : Frame) (work : State → Answered) : Prop where
  exec : ∀ s, exec c s = serve f work s
  does : ∀ s, RequestWork s (work s).1
  coded : ∀ s, ∃ r fields, (work s).2 = Result.code r :: fields
  request : isRequestKind f.kind = true
  size : bodySizeOk f.kind f.body = false → ∀ s, work s = answer s .badArg

section
variable (body : List Octet)

theorem ne_nil_of_size {body : List Octet} (h : decide (body.length = 0) = false) : body ≠ [] := by
  rintro rfl
  cases h

theorem addTo_coded (s : State) (l : Nat) (p : Packet) (segment : List Octet) :
    ∃ r fields, (s.addTo l p segment).2 = Result.code r :: fields := by
  unfold State.addTo
  repeat' split
  all_goals exact ⟨_, _, rfl⟩

theorem cancelPacket_coded (s : State) (l : Nat) (p : Packet) :
    ∃ r fields, (s.cancelPacket l p).2 = Result.code r :: fields := by
  unfold State.cancelPacket
  split
  all_goals exact ⟨_, _, rfl⟩

theorem answerFinished_coded (s : State) (h : Nat) : ∃ r fields, (s.answerFinished h).2 = Result.code r :: fields := by
  unfold State.answerFinished
  split
  all_goals exact ⟨_, _, rfl⟩

theorem parseLineSet_none (h : body.length ≠ 6) : parseLineSet body = none := by
  unfold parseLineSet
  split
  · simp at h
  · rfl

theorem parseMailboxSet_none (h : body.length ≠ 7) : parseMailboxSet body = none := by
  unfold parseMailboxSet
  split
  · simp at h
  · rfl

theorem parsePacketSend_none (h : ¬(5 ≤ body.length ∧ body.length ≤ 517)) : parsePacketSend body = none := by
  unfold parsePacketSend
  split
  · refine if_neg fun hle => h ?_
    simp only [List.length_cons, Config.largestBody] at hle ⊢
    omega
  · rfl

theorem parseCircuitOpen_none (h : bodySizeOk 0x0E#8 body = false) : parseCircuitOpen body = none := by
  unfold parseCircuitOpen
  split
  next source width prec lists =>
    refine if_neg fun hok => ?_
    obtain ⟨⟨hlo, hhi⟩, hlen⟩ := hok
    refine absurd (of_decide_eq_false h) (not_not_intro ?_)
    simp only [List.length_cons, List.getElem?_cons_succ, List.getElem?_cons_zero, Option.map_some, Option.getD_some]
    omega
  · rfl

theorem parseLaneSet_none (h : bodySizeOk 0x0D#8 body = false) : parseLaneSet body = none := by
  unfold parseLaneSet
  split
  next lane prec cut n rest =>
    split
    next hn =>
      split
      next m tail hdrop =>
        refine if_neg fun hlen => ?_
        have hat : rest[n.toNat]? = some m := by
          rw [← List.head?_drop, hdrop]
          rfl
        have hrest : rest.length = n.toNat + 1 + tail.length := by
          have := congrArg List.length hdrop
          simp only [List.length_drop, List.length_cons] at this
          omega
        refine absurd (of_decide_eq_false h) (not_not_intro ?_)
        simp only [List.length_cons, List.getElem?_cons_succ, List.getElem?_cons_zero, Option.map_some, Option.getD_some,
          show 4 + n.toNat = n.toNat + 1 + 1 + 1 + 1 by omega, hat, Config.payloadSlots] at hn ⊢
        omega
      · rfl
    · rfl
  · rfl

variable (tag : Octet)

theorem lineStart_serves : Serves (.lineStart tag body) ⟨0x01#8, tag, body⟩ (lineStart body) where
  exec _ := rfl
  does := lineStart_work body
  coded s := by
    unfold lineStart
    repeat' split
    all_goals exact ⟨_, _, rfl⟩
  request := rfl
  size h _ := if_pos (ne_nil_of_size h)

theorem lineStop_serves : Serves (.lineStop tag body) ⟨0x02#8, tag, body⟩ (lineStop body) where
  exec _ := rfl
  does := lineStop_work body
  coded s := by
    unfold lineStop
    repeat' split
    all_goals exact ⟨_, _, rfl⟩
  request := rfl
  size h _ := if_pos (ne_nil_of_size h)

theorem lineSet_serves : Serves (.lineSet tag body) ⟨0x03#8, tag, body⟩ (lineSet body) where
  exec _ := rfl
  does := lineSet_work body
  coded s := by
    unfold lineSet
    repeat' split
    all_goals exact ⟨_, _, rfl⟩
  request := rfl
  size h _ := by
    unfold lineSet
    rw [parseLineSet_none body (of_decide_eq_false h)]

theorem stats_serves : Serves (.stats tag body) ⟨0x04#8, tag, body⟩ (stats body) where
  exec _ := rfl
  does := stats_work body
  coded s := by
    unfold stats
    repeat' split
    all_goals exact ⟨_, _, rfl⟩
  request := rfl
  size h _ := if_pos (ne_nil_of_size h)

theorem stationEnrol_serves : Serves (.stationEnrol tag body) ⟨0x05#8, tag, body⟩ (stationEnrol body) where
  exec _ := rfl
  does := stationEnrol_work body
  coded s := by
    unfold stationEnrol
    repeat' split
    all_goals exact ⟨_, _, rfl⟩
  request := rfl
  size h s := by
    unfold stationEnrol
    split
    · simp [bodySizeOk] at h
    · rfl

theorem stationWithdraw_serves : Serves (.stationWithdraw tag body) ⟨0x06#8, tag, body⟩ (stationWithdraw body) where
  exec _ := rfl
  does := stationWithdraw_work body
  coded s := by
    unfold stationWithdraw
    repeat' split
    all_goals exact ⟨_, _, rfl⟩
  request := rfl
  size h s := by
    unfold stationWithdraw
    split
    · simp [bodySizeOk] at h
    · rfl

theorem stationBar_serves : Serves (.stationBar tag body) ⟨0x07#8, tag, body⟩ (stationBar body) where
  exec _ := rfl
  does := stationBar_work body
  coded s := by
    unfold stationBar
    repeat' split
    all_goals exact ⟨_, _, rfl⟩
  request := rfl
  size h s := by
    unfold stationBar
    split
    · simp [bodySizeOk] at h
    · rfl

theorem stationUnbar_serves : Serves (.stationUnbar tag body) ⟨0x08#8, tag, body⟩ (stationUnbar body) where
  exec _ := rfl
  does := stationUnbar_work body
  coded s := by
    unfold stationUnbar
    repeat' split
    all_goals exact ⟨_, _, rfl⟩
  request := rfl
  size h s := by
    unfold stationUnbar
    split
    · simp [bodySizeOk] at h
    · rfl

theorem stationBind_serves : Serves (.stationBind tag body) ⟨0x09#8, tag, body⟩ (stationBind body) where
  exec _ := rfl
  does := stationBind_work body
  coded s := by
    unfold stationBind
    repeat' split
    all_goals exact ⟨_, _, rfl⟩
  request := rfl
  size h s := by
    unfold stationBind
    split
    · simp [bodySizeOk] at h
    · rfl

theorem stationRead_serves : Serves (.stationRead tag body) ⟨0x0A#8, tag, body⟩ (stationRead body) where
  exec _ := rfl
  does := stationRead_work body
  coded s := by
    unfold stationRead
    repeat' split
    all_goals exact ⟨_, _, rfl⟩
  request := rfl
  size h s := by
    unfold stationRead
    split
    · simp [bodySizeOk] at h
    · rfl

theorem noteSend_serves : Serves (.noteSend tag body) ⟨0x0B#8, tag, body⟩ (noteSend body) where
  exec _ := rfl
  does := noteSend_work body
  coded s := by
    unfold noteSend
    repeat' split
    all_goals exact ⟨_, _, rfl⟩
  request := rfl
  size h s := by
    unfold noteSend
    split
    next a octets =>
      refine if_pos (.inr ?_)
      have hsize := of_decide_eq_false h
      simp only [List.length_cons, Config.longestNote] at hsize ⊢
      cases octets with
      | nil => exact .inl rfl
      | cons o octets =>
        simp only [List.length_cons] at hsize ⊢
        exact .inr (by omega)
    · rfl

theorem noteCancel_serves : Serves (.noteCancel tag body) ⟨0x0C#8, tag, body⟩ (noteCancel body) where
  exec _ := rfl
  does := noteCancel_work body
  coded s := by
    unfold noteCancel
    repeat' split
    all_goals exact ⟨_, _, rfl⟩
  request := rfl
  size h s := by
    unfold noteCancel
    split
    · simp [bodySizeOk] at h
    · rfl

theorem laneSet_serves : Serves (.laneSet tag body) ⟨0x0D#8, tag, body⟩ (laneSet body) where
  exec _ := rfl
  does := laneSet_work body
  coded s := by
    unfold laneSet
    repeat' split
    all_goals exact ⟨_, _, rfl⟩
  request := rfl
  size h _ := by
    unfold laneSet
    rw [parseLaneSet_none body h]

theorem circuitOpen_serves : Serves (.circuitOpen tag body) ⟨0x0E#8, tag, body⟩ (circuitOpen body) where
  exec _ := rfl
  does := circuitOpen_work body
  coded s := by
    unfold circuitOpen
    repeat' split
    all_goals exact ⟨_, _, rfl⟩
  request := rfl
  size h _ := by
    unfold circuitOpen
    rw [parseCircuitOpen_none body h]

theorem circuitClose_serves : Serves (.circuitClose tag body) ⟨0x0F#8, tag, body⟩ (circuitClose body) where
  exec _ := rfl
  does := circuitClose_work body
  coded s := by
    unfold circuitClose
    repeat' split
    all_goals exact ⟨_, _, rfl⟩
  request := rfl
  size h s := by
    unfold circuitClose
    split
    · simp [bodySizeOk] at h
    · rfl

theorem slotMap_serves : Serves (.slotMap tag body) ⟨0x10#8, tag, body⟩ (slotMap body) where
  exec _ := rfl
  does := slotMap_work body
  coded s := by
    unfold slotMap
    repeat' split
    all_goals exact ⟨_, _, rfl⟩
  request := rfl
  size h _ := if_pos (ne_nil_of_size h)

theorem packetSend_serves : Serves (.packetSend tag body) ⟨0x11#8, tag, body⟩ (packetSend body) where
  exec _ := rfl
  does := packetSend_work body
  coded s := by
    unfold packetSend
    repeat' split
    all_goals exact ⟨_, _, rfl⟩
  request := rfl
  size h _ := by
    unfold packetSend
    rw [parsePacketSend_none body (of_decide_eq_false h)]

theorem packetAdd_serves : Serves (.packetAdd tag body) ⟨0x12#8, tag, body⟩ (packetAdd body) where
  exec _ := rfl
  does := packetAdd_work body
  coded s := by
    unfold packetAdd
    repeat' split
    · exact ⟨_, _, rfl⟩
    · exact addTo_coded s _ _ _
    · exact answerFinished_coded s _
    · exact ⟨_, _, rfl⟩
  request := rfl
  size h s := by
    unfold packetAdd
    split
    next hi lo segment =>
      have hsize := of_decide_eq_false h
      simp only [List.length_cons, Config.largestBody] at hsize ⊢
      exact if_pos (by omega)
    · rfl

theorem packetCancel_serves : Serves (.packetCancel tag body) ⟨0x13#8, tag, body⟩ (packetCancel body) where
  exec _ := rfl
  does := packetCancel_work body
  coded s := by
    unfold packetCancel
    repeat' split
    · exact cancelPacket_coded s _ _
    · exact answerFinished_coded s _
    · exact ⟨_, _, rfl⟩
  request := rfl
  size h s := by
    unfold packetCancel
    split
    · simp [bodySizeOk] at h
    · rfl

theorem laneReset_serves : Serves (.laneReset tag body) ⟨0x14#8, tag, body⟩ (laneReset body) where
  exec _ := rfl
  does := laneReset_work body
  coded s := by
    unfold laneReset
    repeat' split
    all_goals exact ⟨_, _, rfl⟩
  request := rfl
  size h s := by
    unfold laneReset
    split
    · simp [bodySizeOk] at h
    · rfl

theorem laneRead_serves : Serves (.laneRead tag body) ⟨0x15#8, tag, body⟩ (laneRead body) where
  exec _ := rfl
  does := laneRead_work body
  coded s := by
    unfold laneRead
    repeat' split
    all_goals exact ⟨_, _, rfl⟩
  request := rfl
  size h s := by
    unfold laneRead
    split
    · simp [bodySizeOk] at h
    · rfl

theorem mailboxSet_serves : Serves (.mailboxSet tag body) ⟨0x16#8, tag, body⟩ (mailboxSet body) where
  exec _ := rfl
  does := mailboxSet_work body
  coded s := by
    unfold mailboxSet
    repeat' split
    all_goals exact ⟨_, _, rfl⟩
  request := rfl
  size h _ := by
    unfold mailboxSet
    rw [parseMailboxSet_none body (of_decide_eq_false h)]

theorem mailboxTake_serves : Serves (.mailboxTake tag body) ⟨0x17#8, tag, body⟩ (mailboxTake body) where
  exec _ := rfl
  does := mailboxTake_work body
  coded s := by
    unfold mailboxTake
    repeat' split
    all_goals exact ⟨_, _, rfl⟩
  request := rfl
  size h s := by
    unfold mailboxTake
    split
    · simp [bodySizeOk] at h
    · rfl

theorem mailboxFlush_serves : Serves (.mailboxFlush tag body) ⟨0x18#8, tag, body⟩ (mailboxFlush body) where
  exec _ := rfl
  does := mailboxFlush_work body
  coded s := by
    unfold mailboxFlush
    repeat' split
    all_goals exact ⟨_, _, rfl⟩
  request := rfl
  size h s := by
    unfold mailboxFlush
    split
    · simp [bodySizeOk] at h
    · rfl

theorem reportAck_serves : Serves (.reportAck tag body) ⟨0x19#8, tag, body⟩ (reportAck body) where
  exec _ := rfl
  does := reportAck_work body
  coded s := by
    unfold reportAck
    repeat' split
    all_goals exact ⟨_, _, rfl⟩
  request := rfl
  size h s := by
    unfold reportAck
    split
    · simp [bodySizeOk] at h
    · rfl

theorem reportResend_serves : Serves (.reportResend tag body) ⟨0x1A#8, tag, body⟩ (reportResend body) where
  exec _ := rfl
  does := reportResend_work body
  coded s := by
    unfold reportResend
    repeat' split
    all_goals exact ⟨_, _, rfl⟩
  request := rfl
  size h _ := if_pos (ne_nil_of_size h)

theorem linkSet_serves : Serves (.linkSet tag body) ⟨0x1B#8, tag, body⟩ (linkSet body) where
  exec _ := rfl
  does := linkSet_work body
  coded s := by
    unfold linkSet
    repeat' split
    all_goals exact ⟨_, _, rfl⟩
  request := rfl
  size h s := by
    unfold linkSet
    split
    · simp [bodySizeOk] at h
    · rfl

theorem linkHello_serves : Serves (.linkHello tag body) ⟨0x1C#8, tag, body⟩ (linkHello body) where
  exec _ := rfl
  does := linkHello_work body
  coded s := by
    unfold linkHello
    repeat' split
    all_goals exact ⟨_, _, rfl⟩
  request := rfl
  size h _ := if_pos (ne_nil_of_size h)

theorem deviceRestart_serves : Serves (.deviceRestart tag body) ⟨0x1D#8, tag, body⟩ (deviceRestart body) where
  exec _ := rfl
  does := deviceRestart_work body
  coded s := by
    unfold deviceRestart
    repeat' split
    all_goals exact ⟨_, _, rfl⟩
  request := rfl
  size h _ := if_pos (ne_nil_of_size h)

end

section
variable {c : Instr} {f : Frame} {s : State}

theorem frame?_unknownRequest (kind tag : Octet) (body : List Octet) :
    Instr.frame? (.unknownRequest kind tag body) = if isRequestKind kind then none else some ⟨kind, tag, body⟩ := rfl

/-- Every request of a known kind is served. -/
theorem serves_of_frame? (h : c.frame? = some f) (hk : isRequestKind f.kind = true) : ∃ work, Serves c f work := by
  cases c
  case unknownRequest kind tag body =>
    rw [frame?_unknownRequest] at h
    split at h
    next => cases h
    next hn =>
      cases h
      exact absurd hk hn
  all_goals cases h
  · exact ⟨_, lineStart_serves _ _⟩
  · exact ⟨_, lineStop_serves _ _⟩
  · exact ⟨_, lineSet_serves _ _⟩
  · exact ⟨_, stats_serves _ _⟩
  · exact ⟨_, stationEnrol_serves _ _⟩
  · exact ⟨_, stationWithdraw_serves _ _⟩
  · exact ⟨_, stationBar_serves _ _⟩
  · exact ⟨_, stationUnbar_serves _ _⟩
  · exact ⟨_, stationBind_serves _ _⟩
  · exact ⟨_, stationRead_serves _ _⟩
  · exact ⟨_, noteSend_serves _ _⟩
  · exact ⟨_, noteCancel_serves _ _⟩
  · exact ⟨_, laneSet_serves _ _⟩
  · exact ⟨_, circuitOpen_serves _ _⟩
  · exact ⟨_, circuitClose_serves _ _⟩
  · exact ⟨_, slotMap_serves _ _⟩
  · exact ⟨_, packetSend_serves _ _⟩
  · exact ⟨_, packetAdd_serves _ _⟩
  · exact ⟨_, packetCancel_serves _ _⟩
  · exact ⟨_, laneReset_serves _ _⟩
  · exact ⟨_, laneRead_serves _ _⟩
  · exact ⟨_, mailboxSet_serves _ _⟩
  · exact ⟨_, mailboxTake_serves _ _⟩
  · exact ⟨_, mailboxFlush_serves _ _⟩
  · exact ⟨_, reportAck_serves _ _⟩
  · exact ⟨_, reportResend_serves _ _⟩
  · exact ⟨_, linkSet_serves _ _⟩
  · exact ⟨_, linkHello_serves _ _⟩
  · exact ⟨_, deviceRestart_serves _ _⟩

/-- A frame of another kind is the command UNKNOWN_REQUEST's. -/
theorem unknownRequest_of_frame? (h : c.frame? = some f) (hk : isRequestKind f.kind = false) :
    c = .unknownRequest f.kind f.tag f.body := by
  cases c
  case unknownRequest kind tag body =>
    rw [frame?_unknownRequest] at h
    split at h
    next => cases h
    next =>
      cases h
      rfl
  all_goals
    cases h
  all_goals cases hk

theorem isRequestKind_iff (kind : Octet) : isRequestKind kind = true ↔ 1 ≤ kind.toNat ∧ kind.toNat ≤ 29 := decide_eq_true_iff

theorem exec_unknownRequest {kind tag : Octet} {body : List Octet} (hk : isRequestKind kind = false) (s : State) :
    exec (.unknownRequest kind tag body) s
      = serve { kind := kind, tag := tag, body := body } (fun s => answer s .unknownRequest) s := by
  show execUnknownRequest kind tag body s = _
  rw [execUnknownRequest, hk]
  rfl

theorem unknownRequest_gives {kind tag : Octet} {body : List Octet} (hk : isRequestKind kind = false)
    (h : CanTake s ⟨kind, tag, body⟩) : Gives (.unknownRequest kind tag body) s (s.replied 0x80#8 tag [0x0A#8]) := by
  have hgives := gives_unchanged (r := .unknownRequest) (exec_unknownRequest hk s) h rfl
  rwa [show replyKind kind = 0x80#8 by rw [replyKind, hk]; rfl] at hgives

/-- A served request leaves the intake and gets one reply. -/
theorem Serves.answered {work : State → Answered} (hs : Serves c f work) (h : CanTake s f) :
    ∃ u r fields, Gives c s u ∧ u.link.intake = s.link.intake.tail
      ∧ u.link.replies = s.link.replies ++ [{ kind := replyKind f.kind, tag := f.tag, body := Result.code r :: fields }] := by
  obtain ⟨r, fields, hcoded⟩ := hs.coded s.afterTaking
  obtain ⟨-, x, hlink⟩ := (hs.does s.afterTaking).link_pin
  refine ⟨_, r, fields, gives_of_serve f work _ (hs.exec s) h rfl, ?_, ?_⟩
  · show (work s.afterTaking).1.link.intake = _
    rw [hlink]
    rfl
  · show (work s.afterTaking).1.link.replies ++ [{ kind := _, tag := _, body := (work s.afterTaking).2 }] = _
    rw [hlink, hcoded]
    rfl

end

/-- Settles O4: every request is served by its owner's work, or is UNKNOWN_REQUEST's. -/
theorem requestAnsweredOnce : Obligations.RequestAnsweredOnce := by
  refine ⟨fun c f s hf => ⟨fun h => ?_, fun h => ?_⟩, fun c f s hf h => ⟨fun hk => ?_, fun hk hsize => ?_⟩,
    fun kind tag body s hk h => ?_⟩
  · cases hk : isRequestKind f.kind with
    | true =>
      obtain ⟨work, hs⟩ := serves_of_frame? hf hk
      rw [if_pos ((isRequestKind_iff _).mp hk)]
      have hanswered := hs.answered h
      rwa [replyKind, hk] at hanswered
    | false =>
      rw [if_neg fun hr => by simp [(isRequestKind_iff _).mpr hr] at hk]
      rw [unknownRequest_of_frame? hf hk]
      exact ⟨_, .unknownRequest, [], unknownRequest_gives hk h, rfl, rfl⟩
  · cases hk : isRequestKind f.kind with
    | true =>
      obtain ⟨work, hs⟩ := serves_of_frame? hf hk
      rw [hs.exec, serve_skip s f work h]
    | false =>
      rw [unknownRequest_of_frame? hf hk, exec_unknownRequest hk, serve_skip s _ _ h]
  · rw [← isRequestKind_iff, Bool.not_eq_true] at hk
    rw [unknownRequest_of_frame? hf hk]
    exact unknownRequest_gives hk h
  · have hk := (isRequestKind_iff _).mpr hk
    obtain ⟨work, hs⟩ := serves_of_frame? hf hk
    have hgives := gives_unchanged (hs.exec s) h (hs.size hsize _)
    rwa [replyKind, hk] at hgives
  · rw [← isRequestKind_iff, Bool.not_eq_true] at hk
    exact unknownRequest_gives hk h

end Sys2Proof.Machine
end

section
/-! SUPPORT. The transmitter's choice, link resync and the report unit's transfer (R166, R168, R175, R180 to R186); O10, O11, O12, O14. -/

namespace Sys2Proof.Machine

section
variable {s u t : State}

/-! ## The transmitter (R166, R168, R172) -/

/-- The choice of an event that leaves no reply and report together is the one that `arbitrate` makes. -/
theorem arbitrate_of_chooses (h : Chooses u t)
    (hone : ¬(u.link.replies ≠ [] ∧ (u.rep.resend ≠ [] ∨ (u.rep.window.length < 8 ∧ u.rep.queue ≠ [])))) :
    t = u.arbitrate := by
  have hown := u.arbitrate_chooses
  by_cases hheld : u.pin ≠ .high ∨ u.link.rxLow = true ∨ u.link.tx ≠ .idle
  · rw [h.held hheld, hown.held hheld]
  · simp only [not_or, Bool.not_eq_true, ne_eq, not_not] at hheld
    obtain ⟨hpin, hlow, htx⟩ := hheld
    exact (h.one hpin hlow htx hone).unique (hown.one hpin hlow htx hone)

/-- Settles O11: the three ways a frame ends, and the choice of `arbitrate`. -/
theorem transmitterStartsFrames : Obligations.TransmitterStartsFrames := by
  refine ⟨fun s => ⟨fun h => ?_, fun f hpin htx => ?_, fun hpin htx hheld => ?_⟩, fun u hpin hlow htx => ?_,
    fun u h => u.arbitrate_chooses.held h, fun c s u hgives hone => ?_⟩
  · show execTxFrameEnd s = _
    unfold execTxFrameEnd
    split
    next hpin =>
      have htx := h.resolve_left (not_not_intro hpin)
      unfold State.frameEnd
      rw [htx]
    · rfl
  · refine ⟨s.startNext, ?_, startNext_nextFrame s⟩
    rw [exec_txFrameEnd hpin]
    unfold State.frameEnd
    rw [htx]
  · have hnone : s.heldReplyOut = none := by
      unfold State.heldReplyOut
      split
      next hc => exact hheld.resolve_right (not_not_intro hc.2.2)
      · rfl
    refine ⟨s.popReply.startNext, ?_, startNext_nextFrame s.popReply⟩
    rw [exec_txFrameEnd hpin]
    unfold State.frameEnd
    rw [htx, hnone]
  · exact ⟨u.arbitrate_chooses.one hpin hlow htx, u.arbitrate_chooses.both hpin hlow htx⟩
  · obtain ⟨t, he, -, hchooses⟩ := hgives
    rw [he, arbitrate_of_chooses hchooses hone]

/-! ## Breaks (R167, R168, R186) -/

theorem wire_length_pos (f : Frame) : 0 < f.wire.length := by
  unfold Frame.wire
  exact Nat.succ_pos _

/-- With nothing going out, the transmit line is high. -/
theorem transmitLevel_idle (htx : s.link.tx = .idle) (hf : s.link.finishing = none) (k b : Nat) :
    s.transmitLevel (some (k, b)) = true := by
  unfold State.transmitLevel HostLink.txOctet HostLink.txFrame
  simp only [htx, hf]
  rfl

/-- What a resync makes of the state (R168, R186). -/
def State.resynced (s : State) : State :=
  { s with
    link := s.link.resync (Config.cutPlace s.choices), rep := s.rep.resync s.now
    choices := if s.link.txFrame.isSome then s.choices + 1 else s.choices }

/-- The character in progress stands alone after the cut (R168 step 4; log entry 29). -/
theorem resynced_character {f : Frame} (hf : s.link.txFrame = some f) :
    ∃ k o, f.wire[k]? = some o ∧ s.resynced.link.finishing = some (k, o)
      ∧ (∀ b, s.resynced.transmitLevel (some (k, b)) = s.transmitLevel (some (k, b)))
      ∧ ∀ j b, j ≠ k → s.resynced.transmitLevel (some (j, b)) = true := by
  have hk := Nat.mod_lt (Config.cutPlace s.choices) (wire_length_pos f)
  have ho := List.getElem?_eq_getElem hk
  have hfinishing : s.resynced.link.finishing
      = some (Config.cutPlace s.choices % f.wire.length, f.wire[Config.cutPlace s.choices % f.wire.length]) := by
    show (s.link.txFrame.bind _) = _
    rw [hf, Option.bind_some, ho]
    rfl
  refine ⟨_, _, ho, hfinishing, fun b => ?_, fun j b hj => ?_⟩
  · rw [transmitLevel_of_finishing _ rfl _ _ _ _ hfinishing, if_pos rfl, transmitLevel_of_frame s f hf _ b _ ho]
  · rw [transmitLevel_of_finishing _ rfl _ _ _ _ hfinishing, if_neg hj]

theorem txFrame_eq (l : HostLink) : l.txFrame = (match l.tx with
    | .idle => none
    | .reply => l.replies.head?
    | .report f => some f) := by
  unfold HostLink.txFrame
  rfl

/-- Settles O10: a resync leaves the receive line low, so that nothing starts; the other cases are no events. -/
theorem breakResyncsLink : Obligations.BreakResyncsLink := by
  intro s sent
  have hsent : sent = s.link.txFrame := (txFrame_eq s.link).symm
  clear_value sent
  subst hsent
  refine ⟨fun hpin hlow => ⟨s.resynced.link.finishing, s.resynced, ?_, ?_, fun hnone => ?_, fun f hf => ?_⟩, fun h => ?_,
    fun hpin hlow => ?_, fun h => ?_⟩
  · have he : exec .linkResync s = event s.resynced := if_pos ⟨hpin, hlow⟩
    rw [he]
    exact congrArg Host.Outcome.next (s.resynced.arbitrate_chooses.held (.inr (.inl rfl)))
  · have hchoices : s.resynced.choices = if s.link.txFrame = none then s.choices else s.choices + 1 := by
      unfold State.resynced
      cases s.link.txFrame <;> rfl
    rw [← hchoices]
    rfl
  · have hfinishing : s.resynced.link.finishing = none := by
      show (s.link.txFrame.bind _) = none
      rw [hnone]
      rfl
    exact ⟨hfinishing, transmitLevel_idle rfl hfinishing⟩
  · obtain ⟨k, o, ho, hlast, hsame, hother⟩ := resynced_character hf
    exact ⟨k, o, ho, hlast, hsame, hother⟩
  · refine if_neg fun hc => ?_
    obtain ⟨hpin, hlow⟩ := hc
    obtain h | h := h
    · exact h hpin
    · simp [hlow] at h
  · exact gives_of_event _ _ (if_pos ⟨hpin, hlow⟩) rfl
  · refine if_neg fun hc => ?_
    obtain ⟨hpin, hlow⟩ := hc
    obtain h | h := h
    · exact h hpin
    · simp [hlow] at h

end

/-! ## The transfer (R180) -/

section
variable (now : BitVec 16) (u : ReportUnit)

/-- With nothing lost. -/
theorem transfer_without_loss (h : u.lostCount = 0) : u.transfer now =
    { u with
      queue := u.queue ++ (u.entries.map Completion.report).take (64 - (u.queue.length + u.window.length))
      entries := u.entries.drop (64 - (u.queue.length + u.window.length)) } :=
  transferSteps_without_loss now _ u h (Nat.le_succ _)

/-- With room and reports lost. -/
theorem transfer_reports_loss (hroom : u.queue.length + u.window.length < 64) (h : 0 < u.lostCount) : u.transfer now =
    { u with
      queue := u.queue ++ .reportsLost u.lostCount u.kindsLost now
        :: (u.entries.map Completion.report).take (64 - (u.queue.length + u.window.length) - 1)
      entries := u.entries.drop (64 - (u.queue.length + u.window.length) - 1), lostCount := 0, kindsLost := 0 } := by
  rw [transfer_with_loss now u ((ReportUnit.full_eq_false_iff u).mpr hroom) h]
  refine (transferSteps_without_loss now _ _ ?_ ?_).trans ?_
  · rfl
  · exact Nat.le_refl _
  have hone : 64 - ((u.queue ++ [Report.reportsLost u.lostCount u.kindsLost now]).length + u.window.length)
      = 64 - (u.queue.length + u.window.length) - 1 := by
    rw [List.length_append, List.length_singleton]
    omega
  simp only [ReportUnit.append, hone, List.append_assoc, List.singleton_append]

end

/-- Settles O12: handing over by the cases of R175, and the transfer with and without lost reports. -/
theorem reportsQueuedAndTransferred : Obligations.ReportsQueuedAndTransferred := by
  refine ⟨fun u r => ⟨fun q h => handOver_folded u r q h, fun h hroom => ?_, fun h hfull => ?_⟩, fun u now => ?_⟩
  · exact handOver_room u r h ((ReportUnit.full_eq_false_iff u).mpr hroom)
  · exact handOver_full u r h ((ReportUnit.full_eq_true_iff u).mpr hfull)
  · intro room lost
    by_cases hlost : 0 < u.lostCount
    · have hlist : lost = [.reportsLost u.lostCount u.kindsLost now] := if_pos hlost
      rw [hlist]
      by_cases hfull : 64 ≤ u.queue.length + u.window.length
      · have hroom : room = 0 := Nat.sub_eq_zero_of_le hfull
        rw [transfer_full now u ((ReportUnit.full_eq_true_iff u).mpr hfull), hroom]
        exact ⟨by simp, by simp, fun h => absurd h (Nat.lt_irrefl 0), fun _ => ⟨rfl, rfl⟩, rfl, rfl, rfl⟩
      · have hroom : room = room - 1 + 1 := by omega
        rw [transfer_reports_loss now u (Nat.lt_of_not_le hfull) hlost]
        refine ⟨?_, rfl, fun _ _ => ⟨rfl, rfl⟩, fun h => by omega, rfl, rfl, rfl⟩
        rw [hroom]
        rfl
    · have hzero : u.lostCount = 0 := Nat.eq_zero_of_not_pos hlost
      have hlist : lost = [] := if_neg hlost
      rw [hlist, transfer_without_loss now u hzero]
      exact ⟨rfl, rfl, fun _ h => absurd h hlost, fun _ => ⟨rfl, rfl⟩, rfl, rfl, rfl⟩

/-! ## REPORT.ACK and REPORT.RESEND (R183 to R185) -/

theorem reportStatus_octets (s : State) : s.reportStatus =
    [BitVec.ofNat 8 s.rep.queue.length, BitVec.ofNat 8 s.rep.window.length, ((s.rep.window.head?).map (·.seq)).getD 0xFF#8,
      s.rep.nextSeq, BitVec.ofNat 8 s.rep.resend.length, BitVec.ofNat 8 s.placesHeld, BitVec.ofNat 8 s.rep.entries.length,
      BitVec.ofNat 8 (s.rep.lostCount / 256), BitVec.ofNat 8 s.rep.lostCount] := by
  have hseq : o8? (s.rep.window.head?.map (·.seq.toNat)) = [((s.rep.window.head?).map (·.seq)).getD 0xFF#8] := by
    cases s.rep.window.head? with
    | none => rfl
    | some x => simp [o8?, o8]
  unfold State.reportStatus
  rw [hseq]
  rfl

theorem findIdx?_of_first {A B : List SentReport} {r : SentReport} {n : Octet} (hr : r.seq = n) (hA : ∀ x ∈ A, x.seq ≠ n) :
    (A ++ r :: B).findIdx? (fun x => x.seq == n) = some A.length := by
  induction A with
  | nil => simp [List.findIdx?_cons, hr]
  | cons x A ih =>
    have hx := hA x List.mem_cons_self
    rw [List.cons_append, List.findIdx?_cons, ih fun y hy => hA y (List.mem_cons_of_mem x hy)]
    simp [hx]

/-- The unit after the reports up to the named one are acknowledged (R183). -/
theorem acknowledge_split {u : ReportUnit} {A B : List SentReport} {r : SentReport} (h : u.window = A ++ r :: B) (now : BitVec 16) :
    u.acknowledge now (A.length + 1) = ReportUnit.transfer now
      { u with window := B, resend := u.resend.filter fun x => decide (x.seq ∉ (A ++ [r]).map (·.seq)) } := by
  have hsplit : u.window = (A ++ [r]) ++ B := by rw [h, List.append_assoc, List.singleton_append]
  have hlen : A.length + 1 = (A ++ [r]).length := by rw [List.length_append, List.length_singleton]
  unfold ReportUnit.acknowledge
  rw [hsplit, hlen, List.drop_left, List.take_left]
  have hresend : (u.resend.filter fun x => (A ++ [r]).all fun q => q.seq != x.seq)
      = u.resend.filter fun x => decide (x.seq ∉ (A ++ [r]).map (·.seq)) := by
    refine List.filter_congr fun x _ => ?_
    rw [Bool.eq_iff_iff]
    simp only [List.all_eq_true, decide_eq_true_eq, List.mem_map, not_exists, not_and, bne_iff_ne]
  rw [hresend]

section
variable {s : State} {n : Octet}

theorem reportAck_of_found {i : Nat} (h : s.rep.window.findIdx? (fun x => x.seq == n) = some i) :
    reportAck [n] s = answer { s with rep := s.rep.acknowledge s.now (i + 1) } .ok
      (o8 (i + 1) ++ ({ s with rep := s.rep.acknowledge s.now (i + 1) } : State).reportStatus) := by
  unfold reportAck
  simp only [h]

theorem reportAck_of_none (h : s.rep.window.findIdx? (fun x => x.seq == n) = none) :
    reportAck [n] s = answer s .badArg s.reportStatus := by
  unfold reportAck
  simp only [h]

end

/-- Settles O14: the acknowledged reports are a front part of the window. -/
theorem reportsAcknowledgedAndResent : Obligations.ReportsAcknowledgedAndResent := by
  intro s tag
  refine ⟨fun n A B r h hwindow hr hA => ?_, fun n h hno => ?_, fun h => ?_, reportStatus_octets s⟩
  · have hfind : s.rep.window.findIdx? (fun x => x.seq == n) = some A.length := by
      rw [hwindow, findIdx?_of_first hr hA]
    intro u
    have hu : u = { s with rep := s.rep.acknowledge s.now (A.length + 1) } := by rw [acknowledge_split hwindow]
    rw [hu]
    exact gives_changed (work := reportAck [n]) rfl h (reportAck_of_found (s := s.afterTaking) hfind) rfl rfl
  · have hfind : s.rep.window.findIdx? (fun x => x.seq == n) = none :=
      List.findIdx?_eq_none_iff.mpr fun x hx => by simpa using hno x hx
    refine gives_unchanged (work := reportAck [n]) (r := .badArg) rfl h ?_
    exact reportAck_of_none hfind
  · exact gives_changed (work := reportResend []) (r := .ok) (v' := { s.afterTaking with rep := { s.rep with resend := s.rep.window } })
      rfl h rfl rfl rfl

end Sys2Proof.Machine
end

section
/-! SUPPORT. The framer: what a received character does in each of its states (R160 to R163); O8. -/

namespace Sys2Proof.Machine

section
variable {s : State} {o d : Octet}

theorem exec_rxCharacter (hpin : s.pin = .high) (hlow : s.link.rxLow = false) (stop : Bool) :
    exec (.rxCharacter o stop) s = event (if stop then s.framerOctet o else s.framingError) := if_pos ⟨hpin, hlow⟩

theorem linkFault_eq (s : State) (cause : LinkFaultCause) :
    s.linkFault cause = s.linkFaulted (if cause = .cutShort then .starting else .hunting) cause := rfl

theorem framingError_hunt (h : s.link.framer.state = .hunt) : s.framingError = s := by
  unfold State.framingError
  rw [h]

theorem framingError_frame (h : s.link.framer.state ≠ .hunt) : s.framingError = s.linkFault .framing := by
  unfold State.framingError
  split
  next hunt => exact absurd hunt h
  all_goals rfl

/-! ## Characters and data octets (R160, R161) -/

theorem framerOctet_hunt (h : s.link.framer.state = .hunt) :
    s.framerOctet o = if o = 0xD5#8 then s.withFramer .starting else s := by
  unfold State.framerOctet
  rw [h]
  rfl

theorem framerOctet_frame (h : s.link.framer.state ≠ .hunt) : s.framerOctet o =
    if o = 0xD5#8 then s.linkFault .cutShort
    else if s.link.framer.escape then
      if o = 0xF5#8 ∨ o = 0xF6#8 then s.frameOctet (escapedForm o)
      else s.linkFault .escape
    else if o = 0xD6#8 then s.withFramer { s.link.framer with escape := true }
    else s.frameOctet o := by
  unfold State.framerOctet
  split
  next hunt => exact absurd hunt h
  all_goals rfl

/-- The character stands for the data octet `d`, escapes undone. -/
def State.reads (s : State) (o d : Octet) : Prop :=
  (s.link.framer.escape = false ∧ o = d ∧ o ≠ 0xD5#8 ∧ o ≠ 0xD6#8)
    ∨ (s.link.framer.escape = true ∧ ((o = 0xF5#8 ∧ d = 0xD5#8) ∨ (o = 0xF6#8 ∧ d = 0xD6#8)))

theorem framerOctet_reads (h : s.link.framer.state ≠ .hunt) (hd : s.reads o d) : s.framerOctet o = s.frameOctet d := by
  rw [framerOctet_frame h]
  obtain ⟨hesc, rfl, hstart, hescape⟩ | ⟨hesc, ⟨rfl, rfl⟩ | ⟨rfl, rfl⟩⟩ := hd
  · rw [if_neg hstart, hesc, if_neg Bool.false_ne_true, if_neg hescape]
  · rw [if_neg (by decide), if_pos hesc]
    rfl
  · rw [if_neg (by decide), if_pos hesc]
    rfl

/-! ## A data octet of a frame (R161, R163) -/

/-- The framer has taken the octets `b` and is in the state. -/
def State.taken (s : State) (b : List Octet) (st : FramerState) : State :=
  s.withFramer { state := st, escape := false, buffer := b }

theorem frameLength_eq {b : List Octet} (h : 2 ≤ b.length) : frameLength b = nat16 ((b[0]?).getD 0) ((b[1]?).getD 0) := by
  match b, h with
  | _ :: _ :: _, _ => rfl

variable {b : List Octet} (hb : s.link.framer.buffer ++ [d] = b)
include hb

theorem frameOctet_length (h : s.link.framer.state = .length) : s.frameOctet d =
    if b.length < 2 then s.taken b .length
    else if frameLength b < 2 ∨ 562 < frameLength b then s.linkFault .length
    else s.taken b .content := by
  subst hb
  unfold State.frameOctet
  simp only [h]
  rfl

theorem frameOctet_content (h : s.link.framer.state = .content) : s.frameOctet d =
    if b.length < frameLength b + 2 then s.taken b .content else s.taken b .check := by
  subst hb
  unfold State.frameOctet
  simp only [h]
  rfl

theorem frameOctet_check (h : s.link.framer.state = .check) : s.frameOctet d =
    if b.length < frameLength b + 4 then s.taken b .check
    else if b.drop (frameLength b + 2) = [hi8 (crc (b.take (frameLength b + 2))), lo8 (crc (b.take (frameLength b + 2)))] then
      s.offerFrame (frameOf b)
    else s.linkFault .check := by
  subst hb
  unfold State.frameOctet
  simp only [h]
  rfl

end

/-- Settles O8: a character is a start octet, an escape, or a data octet, which the state of the framer takes. -/
theorem charactersFramed : Obligations.CharactersFramed := by
  intro s o
  refine ⟨fun h stop => if_neg fun hc => ?_, fun hpin hlow => ?_⟩
  · obtain ⟨hpin, hlow⟩ := hc
    obtain h | h := h
    · exact h hpin
    · simp [hlow] at h
  have hlow' : ∀ u, s.framingError = u → Gives (.rxCharacter o false) s u := fun u hu =>
    gives_of_event u _ (exec_rxCharacter hpin hlow false) hu
  have hhigh : ∀ u, s.framerOctet o = u → Gives (.rxCharacter o true) s u := fun u hu =>
    gives_of_event u _ (exec_rxCharacter hpin hlow true) hu
  refine ⟨fun h => hlow' _ (framingError_hunt h), fun h => hlow' _ (framingError_frame h), fun h ho => hhigh _ ?_,
    fun h ho => hhigh _ ?_, fun h ho => hhigh _ ?_, fun h hesc hstart hone htwo => hhigh _ ?_, fun h hesc ho => hhigh _ ?_,
    fun d hd => ?_⟩
  · rw [framerOctet_hunt h, if_pos ho]
    rfl
  · rw [framerOctet_hunt h, if_neg ho]
  · rw [framerOctet_frame h, if_pos ho]
    rfl
  · rw [framerOctet_frame h, if_neg hstart, if_pos hesc, if_neg fun hor => hor.elim hone htwo]
    rfl
  · rw [framerOctet_frame h, ho, if_neg (by decide), hesc]
    rfl
  intro b length
  have hdata : ∀ st u, st ≠ .hunt → s.link.framer.state = st → s.frameOctet d = u → Gives (.rxCharacter o true) s u :=
    fun st u hst hs hu => hhigh u ((framerOctet_reads (hs ▸ hst) hd).trans hu)
  have hlen : 2 ≤ b.length → frameLength b = length := frameLength_eq
  refine ⟨fun h hshort => ?_, fun h htwo hout => ?_, fun h htwo hlo hhi => ?_, fun h htwo hmore => ?_, fun h htwo hwhole => ?_,
    fun h htwo hmore => ?_, fun h htwo hwhole hbad => ?_, fun h htwo hwhole hgood => ⟨fun hroom => ?_, fun hfull => ?_⟩⟩
  · refine hdata .length _ (by simp) h ?_
    rw [frameOctet_length rfl h, if_pos hshort]
    rfl
  · refine hdata .length _ (by simp) h ?_
    rw [frameOctet_length rfl h, if_neg (Nat.not_lt_of_le htwo), hlen htwo, if_pos hout]
    rfl
  · refine hdata .length _ (by simp) h ?_
    rw [frameOctet_length rfl h, if_neg (Nat.not_lt_of_le htwo), hlen htwo, if_neg (by omega)]
    rfl
  · refine hdata .content _ (by simp) h ?_
    rw [frameOctet_content rfl h, hlen htwo, if_pos hmore]
    rfl
  · refine hdata .content _ (by simp) h ?_
    rw [frameOctet_content rfl h, hlen htwo, if_neg (Nat.not_lt_of_le hwhole)]
    rfl
  · refine hdata .check _ (by simp) h ?_
    rw [frameOctet_check rfl h, hlen htwo, if_pos hmore]
    rfl
  · refine hdata .check _ (by simp) h ?_
    rw [frameOctet_check rfl h, hlen htwo, if_neg (Nat.not_lt_of_le hwhole), if_neg hbad]
    rfl
  · refine hdata .check _ (by simp) h ?_
    rw [frameOctet_check rfl h, hlen htwo, if_neg (Nat.not_lt_of_le hwhole), if_pos hgood, ← hlen htwo]
    exact if_pos hroom
  · refine hdata .check _ (by simp) h ?_
    rw [frameOctet_check rfl h, hlen htwo, if_neg (Nat.not_lt_of_le hwhole), if_pos hgood]
    exact if_neg (Nat.not_lt_of_le hfull)

end Sys2Proof.Machine
end

section
/-! SUPPORT. The wire form of a frame, and the framer that takes it back (R158 to R161); O9. -/

namespace Sys2Proof.Machine

/-! ## Escaping (R160) -/

theorem start_not_mem_escapeOne (o : Octet) : 0xD5#8 ∉ escapeOne o := by
  unfold escapeOne
  split
  next h =>
    obtain rfl | rfl := h
    · decide
    · decide
  next h => simpa using fun he : 0xD5#8 = o => h (.inl he.symm)

theorem escapeOne_length_le (o : Octet) : (escapeOne o).length ≤ 2 := by
  unfold escapeOne
  split
  · exact Nat.le_refl 2
  · exact Nat.le_succ 1

theorem flatMap_escapeOne_length_le (os : List Octet) : (os.flatMap escapeOne).length ≤ 2 * os.length := by
  induction os with
  | nil => exact Nat.le_refl 0
  | cons o os ih =>
    have := escapeOne_length_le o
    rw [List.flatMap_cons, List.length_append, List.length_cons]
    omega

section
variable {s : State} {d : Octet}

/-- The framer's escape flag is of no account to a data octet. -/
theorem frameOctet_escape (h : s.link.framer.state ≠ .hunt) :
    (s.withFramer { s.link.framer with escape := true }).frameOctet d = s.frameOctet d := by
  have hb : (s.withFramer { s.link.framer with escape := true }).link.framer.buffer ++ [d] = s.link.framer.buffer ++ [d] := rfl
  cases hst : s.link.framer.state with
  | hunt => exact absurd hst h
  | length =>
    rw [frameOctet_length hb hst, frameOctet_length rfl hst]
    rfl
  | content =>
    rw [frameOctet_content hb hst, frameOctet_content rfl hst]
    rfl
  | check =>
    rw [frameOctet_check hb hst, frameOctet_check rfl hst]
    rfl

/-- In a frame, the wire form of an octet is that data octet. -/
theorem foldl_escapeOne (h : s.link.framer.state ≠ .hunt) (hesc : s.link.framer.escape = false) :
    (escapeOne d).foldl (fun s o => s.framerOctet o) s = s.frameOctet d := by
  have hescape : s.framerOctet 0xD6#8 = s.withFramer { s.link.framer with escape := true } := by
    rw [framerOctet_frame h, if_neg (by decide), hesc, if_neg Bool.false_ne_true, if_pos rfl]
  unfold escapeOne
  split
  next hd =>
    show (s.framerOctet 0xD6#8).framerOctet (escapedForm d) = _
    rw [hescape, ← frameOctet_escape h]
    refine framerOctet_reads h (.inr ⟨rfl, ?_⟩)
    obtain rfl | rfl := hd
    · exact .inl ⟨by decide, rfl⟩
    · exact .inr ⟨by decide, rfl⟩
  next hd => exact framerOctet_reads h (.inl ⟨hesc, rfl, fun he => hd (.inl he), fun he => hd (.inr he)⟩)

end

/-! ## The octets of a frame (R159) -/

section
variable (f : Frame)

theorem content_eq : f.content = BitVec.ofNat 8 ((f.body.length + 2) / 256) :: BitVec.ofNat 8 (f.body.length + 2) :: f.kind
    :: f.tag :: f.body := rfl

theorem content_length : f.content.length = f.body.length + 4 := rfl

theorem unescaped_length : f.unescaped.length = f.body.length + 6 := by
  unfold Frame.unescaped
  rw [List.length_append, content_length]
  rfl

theorem unescaped_eq : f.unescaped = BitVec.ofNat 8 ((f.body.length + 2) / 256) :: BitVec.ofNat 8 (f.body.length + 2) :: f.kind
    :: f.tag :: (f.body ++ [hi8 (crc f.content), lo8 (crc f.content)]) := rfl

theorem nat16_ofNat {n : Nat} (h : n < 65536) : nat16 (BitVec.ofNat 8 (n / 256)) (BitVec.ofNat 8 n) = n := by
  unfold nat16
  rw [BitVec.toNat_ofNat, BitVec.toNat_ofNat]
  omega

/-- The first two octets give the length of the rest. -/
theorem frameLength_take (hf : f.body.length ≤ 560) {k : Nat} (hk : 2 ≤ k) : frameLength (f.unescaped.take k) = f.body.length + 2 := by
  obtain ⟨j, rfl⟩ := Nat.exists_eq_add_of_le' hk
  exact nat16_ofNat (show f.body.length + 2 < 65536 by omega)

theorem frameOf_unescaped (hf : f.body.length ≤ 560) : frameOf f.unescaped = f := by
  have hlen : frameLength f.unescaped = f.body.length + 2 := nat16_ofNat (show f.body.length + 2 < 65536 by omega)
  unfold frameOf
  rw [hlen, unescaped_eq]
  simp

theorem take_unescaped : f.unescaped.take (f.body.length + 4) = f.content := by
  rw [← content_length]
  exact List.take_left

theorem drop_unescaped : f.unescaped.drop (f.body.length + 4) = [hi8 (crc f.content), lo8 (crc f.content)] := by
  rw [← content_length]
  exact List.drop_left

end

/-! ## The framer over a frame (R161) -/

/-- The framer's state when `k` octets of a frame with `n` body octets have come. -/
def stage (n k : Nat) : FramerState := if k < 2 then .length else if k < n + 4 then .content else .check

section
variable (s : State) {f : Frame} (hf : f.body.length ≤ 560)
include hf

/-- One octet of the frame before its last. -/
theorem frameOctet_stage {k : Nat} (hk : k + 1 < f.body.length + 6) {d : Octet} (hd : f.unescaped[k]? = some d) :
    (s.taken (f.unescaped.take k) (stage f.body.length k)).frameOctet d
      = s.taken (f.unescaped.take (k + 1)) (stage f.body.length (k + 1)) := by
  have hb : (s.taken (f.unescaped.take k) (stage f.body.length k)).link.framer.buffer ++ [d] = f.unescaped.take (k + 1) := by
    rw [List.take_add_one, hd]
    rfl
  have hlen : (f.unescaped.take (k + 1)).length = k + 1 := by
    rw [List.length_take, unescaped_length]
    omega
  have hfield : 2 ≤ k + 1 → frameLength (f.unescaped.take (k + 1)) = f.body.length + 2 := frameLength_take f hf
  by_cases h₁ : k < 2
  · have hst : stage f.body.length k = .length := if_pos h₁
    rw [frameOctet_length hb hst, hlen]
    by_cases h₂ : k + 1 < 2
    · have hnext : stage f.body.length (k + 1) = .length := if_pos h₂
      rw [if_pos h₂, hnext]
      rfl
    · have hnext : stage f.body.length (k + 1) = .content := (if_neg h₂).trans (if_pos (by omega))
      rw [if_neg h₂, hfield (by omega), if_neg (by omega), hnext]
      rfl
  · by_cases h₂ : k < f.body.length + 4
    · have hst : stage f.body.length k = .content := (if_neg h₁).trans (if_pos h₂)
      rw [frameOctet_content hb hst, hlen, hfield (by omega)]
      by_cases h₃ : k + 1 < f.body.length + 4
      · have hnext : stage f.body.length (k + 1) = .content := (if_neg (by omega)).trans (if_pos h₃)
        rw [if_pos (by omega), hnext]
        rfl
      · have hnext : stage f.body.length (k + 1) = .check := (if_neg (by omega)).trans (if_neg h₃)
        rw [if_neg (by omega), hnext]
        rfl
    · have hst : stage f.body.length k = .check := (if_neg h₁).trans (if_neg h₂)
      have hnext : stage f.body.length (k + 1) = .check := (if_neg (by omega)).trans (if_neg (by omega))
      rw [frameOctet_check hb hst, hlen, hfield (by omega), if_pos (by omega), hnext]
      rfl

theorem foldl_take {k : Nat} (hk : k < f.body.length + 6) :
    ((f.unescaped.take k).flatMap escapeOne).foldl (fun s o => s.framerOctet o) (s.taken [] .length)
      = s.taken (f.unescaped.take k) (stage f.body.length k) := by
  induction k with
  | zero => rfl
  | succ k ih =>
    have hd := List.getElem?_eq_getElem (l := f.unescaped) (i := k) (by rw [unescaped_length]; omega)
    have hsplit : f.unescaped.take (k + 1) = f.unescaped.take k ++ [f.unescaped[k]'(by rw [unescaped_length]; omega)] := by
      rw [List.take_add_one, hd]
      rfl
    have hstage : stage f.body.length k ≠ .hunt := by
      unfold stage
      split_ifs <;> simp
    have hone := (foldl_escapeOne (s := s.taken (f.unescaped.take k) (stage f.body.length k)) hstage rfl).trans
      (frameOctet_stage s hf hk hd)
    refine .trans ?_ hone
    rw [hsplit, List.flatMap_append, List.foldl_append, ih (Nat.lt_of_succ_lt hk), List.flatMap_singleton]

/-- The framer takes a frame's wire form back to the frame. -/
theorem foldl_wire (hhunt : s.link.framer.state = .hunt) (hroom : s.link.intake.length < 4) :
    f.wire.foldl (fun s o => s.framerOctet o) s
      = { s with
          link := { s.link with framer := { state := .hunt, escape := false, buffer := [] }, intake := s.link.intake ++ [f] } } := by
  have hstart : s.framerOctet startOctet = s.taken [] .length := by
    rw [framerOctet_hunt hhunt]
    exact if_pos rfl
  have hlast := List.getElem?_eq_getElem (l := f.unescaped) (i := f.body.length + 5) (by rw [unescaped_length]; omega)
  have hsplit := List.take_add_one (l := f.unescaped) (i := f.body.length + 5)
  rw [List.take_of_length_le (Nat.le_of_eq (unescaped_length f)), hlast, Option.toList_some] at hsplit
  have hst : stage f.body.length (f.body.length + 5) = .check := (if_neg (by omega)).trans (if_neg (by omega))
  have hlen : frameLength f.unescaped = f.body.length + 2 := nat16_ofNat (show f.body.length + 2 < 65536 by omega)
  show (f.unescaped.flatMap escapeOne).foldl (fun s o => s.framerOctet o) (s.framerOctet startOctet) = _
  rw [hstart]
  conv_lhs => rw [hsplit, List.flatMap_append, List.foldl_append, foldl_take s hf (Nat.lt_succ_self _)]
  rw [List.flatMap_singleton, foldl_escapeOne (by rw [hst]; simp [State.taken, State.withFramer]) rfl, frameOctet_check hsplit.symm hst, hlen,
    unescaped_length, if_neg (by omega), drop_unescaped, take_unescaped, if_pos rfl, frameOf_unescaped f hf]
  exact if_pos hroom

end

/-! ## Characters (R158) -/

theorem readCharacter_levels (o : Octet) (start stop : Bool) :
    readCharacter [start, o.getLsbD 0, o.getLsbD 1, o.getLsbD 2, o.getLsbD 3, o.getLsbD 4, o.getLsbD 5, o.getLsbD 6, o.getLsbD 7, stop]
      = if start then none else some (o, stop) := by
  unfold readCharacter
  simp only [octetOfBits_getLsbD]

/-- Settles O9: the levels of a character, and the framer over the octets of a frame. -/
theorem framerTakesWire : Obligations.FramerTakesWire := by
  refine ⟨fun o => ⟨characterLevels_eq o, readCharacter_levels o false true, readCharacter_levels o false false,
    readCharacter_levels o true true⟩, fun s => ⟨rfl, fun k b htx hf => transmitLevel_idle htx hf k b, fun k o j b htx hf => ?_,
    fun f k o b htx ho => ?_⟩, rfl, rfl, fun f hf => ⟨⟨rfl, ?_, ?_⟩, fun s => foldl_wire s hf⟩⟩
  · exact transmitLevel_of_finishing s htx k j b o hf
  · refine transmitLevel_of_frame s f ?_ k b o ho
    unfold State.txFrame HostLink.txFrame
    obtain htx | ⟨htx, hreply⟩ := htx
    · rw [htx]
    · rw [htx]
      exact hreply
  · intro hmem
    obtain ⟨o, -, ho⟩ := List.mem_flatMap.mp hmem
    exact start_not_mem_escapeOne o ho
  · have := flatMap_escapeOne_length_le f.unescaped
    rw [unescaped_length] at this
    show (f.unescaped.flatMap escapeOne).length + 1 ≤ _
    omega

end Sys2Proof.Machine
end

section
/-! SUPPORT. The line requests (R7, R9, R14); O15, O16, O17. -/

namespace Sys2Proof.Machine

/-! ## LINE.START and LINE.STOP -/

section
variable {s : State}

theorem lineStart_of_rest (h : s.line.state = .stopped ∨ s.line.state = .faulted) : lineStart [] s = answer s.startLine .ok := by
  unfold lineStart
  obtain h | h := h
  · simp [h]
  · simp [h]

theorem lineStart_of_started (h : s.line.state = .starting ∨ s.line.state = .running) : lineStart [] s = answer s .badState := by
  unfold lineStart
  obtain h | h := h
  · simp [h]
  · simp [h]

theorem lineStop_of_stopped (h : s.line.state = .stopped) : lineStop [] s = answer s .ok := if_pos h

theorem lineStop_of_not_stopped (h : s.line.state ≠ .stopped) : lineStop [] s = answer s.stopLine .ok := if_neg h

/-- The line after LINE.STOP: released, with no fault reason. -/
def LineEngine.stopped (e : LineEngine) : LineEngine :=
  { e with
    state := .stopped, faultReason := none, cycleOpen := false, driven := List.replicate 48 0xFF#8
    sampleDown := List.replicate 43 none, sampleUp := List.replicate 43 none }

/-- LINE.STOP before the line-down effects (R9). -/
def State.lineStopped (s : State) : State :=
  { s with
    line := s.line.stopped
    rep := s.rep.handOver (.lineState .stopped s.line.state .request s.line.cycleCounter) }

theorem stopLine_of_not_running (h : s.line.state ≠ .running) : s.stopLine = s.lineStopped := if_neg h

theorem stopLine_of_running (h : s.line.state = .running) : s.stopLine = s.lineStopped.lineDown := if_pos h

theorem Apart.lineDown (s : State) : Apart s s.lineDown := by
  constructor <;> simp

/-- The line-down effects once the line has left RUNNING and its report is handed over (R13). -/
theorem lineDown_outcome (hs : Shape s) (hl : LiveHandles s) (hw : WindowSound s) {l : LineEngine} (hlen : l.driven.length = 48)
    (hnow : l.cycleCounter = s.line.cycleCounter) {r : Report} {x : State} (hx : x = { s with line := l, rep := s.rep.handOver r }) :
    x.lineDown.line = l ∧ LineDown s x.lineDown ∧ Apart s x.lineDown ∧ x.lineDown.rep = s.lineDownReports (s.rep.handOver r) := by
  subst hx
  obtain ⟨hwindow, hnext, hresend, hentries⟩ := handOver_frame s.rep r
  have hshape : Shape ({ s with line := l, rep := s.rep.handOver r } : State) := ⟨hs.1, hs.2, hs.3, hs.4, hs.5, hs.6, hlen⟩
  have hlive : LiveHandles ({ s with line := l, rep := s.rep.handOver r } : State) :=
    hl.of_suffix rfl rfl (hentries ▸ List.suffix_refl _)
  refine ⟨(State.lineDown_frame _).1, ?_, ?_, ?_⟩
  · exact (lineDown_spec _ hshape hlive hw.receiving).of_eq rfl rfl rfl rfl rfl rfl rfl rfl rfl rfl hresend
  · have hreport : Apart s ({ s with line := l, rep := s.rep.handOver r } : State) :=
      ⟨rfl, rfl, rfl, ⟨hwindow, hnext, hresend⟩, rfl, rfl⟩
    exact hreport.after (.lineDown _)
  · refine (lineDown_rep _ hshape hlive).trans ?_
    exact lineDownReports_of_eq (s := { s with line := l, rep := s.rep.handOver r }) (t := s) rfl rfl rfl hnow _

end

/-- Settles O15: the two answers of LINE.START. -/
theorem lineStarts : Obligations.LineStarts := fun s _ h =>
  ⟨fun hrest => gives_changed (work := lineStart []) (v' := s.afterTaking.startLine) (r := .ok) rfl h (lineStart_of_rest hrest)
      rfl rfl,
    fun hon => gives_unchanged (work := lineStart []) (r := .badState) rfl h (lineStart_of_started hon)⟩

/-- Settles O16: the answers of LINE.STOP, by the line's state. -/
theorem lineStops : Obligations.LineStops := by
  intro s _ h stopped report
  refine ⟨fun hstopped => ?_, fun hon => ?_, fun hrun hs hl hw => ?_⟩
  · exact gives_unchanged (work := lineStop []) (r := .ok) rfl h (lineStop_of_stopped hstopped)
  · have hne : s.line.state ≠ .stopped ∧ s.line.state ≠ .running := by
      obtain he | he := hon
      · rw [he]
        decide
      · rw [he]
        decide
    refine gives_changed (work := lineStop []) (v' := s.afterTaking.lineStopped) (r := .ok) rfl h ?_ rfl rfl
    rw [lineStop_of_not_stopped (s := s.afterTaking) hne.1, stopLine_of_not_running (s := s.afterTaking) hne.2]
  · have hne : s.line.state ≠ .stopped := by
      rw [hrun]
      decide
    have hw' : lineStop [] s.afterTaking = answer s.afterTaking.lineStopped.lineDown .ok := by
      rw [lineStop_of_not_stopped (s := s.afterTaking) hne, stopLine_of_running (s := s.afterTaking) hrun]
    have hend := lineDown_outcome (s := s.afterTaking) hs.afterTaking (hl.of_suffix rfl rfl (List.suffix_refl _))
      (hw.of_kept (.of_frame rfl rfl rfl rfl)) (l := stopped) rfl rfl (r := report) (x := s.afterTaking.lineStopped) rfl
    generalize s.afterTaking.lineStopped.lineDown = v at hw' hend
    obtain ⟨hline, hdown, hapart, hrep⟩ := hend
    have hdown' : LineDown s v := hdown.of_eq rfl rfl rfl rfl rfl rfl rfl rfl rfl rfl rfl
    refine ⟨{ v with link := s.link }, gives_changed (r := .ok) rfl h hw' hapart.link rfl, hline, hdown'.with_link,
      ⟨rfl, hapart.pin, hapart.handles, hapart.sent, hapart.choices, hapart.pending⟩, hrep.trans ?_⟩
    exact lineDownReports_of_eq (t := s) rfl rfl rfl rfl _

/-! ## LINE.SET -/

section
variable {s : State} {mask m w p q r : Octet}

/-- The values that the mask gives. -/
def givenSettings (mask m w p q r : Octet) : GivenSettings where
  missLimit := if mask.getLsbD 0 then some m.toNat else none
  windowLimit := if mask.getLsbD 1 then some w.toNat else none
  probeInterval := if mask.getLsbD 2 then some p.toNat else none
  quietLimit := if mask.getLsbD 3 then some q.toNat else none
  receiveReserve := if mask.getLsbD 4 then some r.toNat else none

theorem parseLineSet_eq : parseLineSet [mask, m, w, p, q, r] = if mask.toNat < 32 then some (givenSettings mask m w p q r) else none := rfl

theorem all_given (b : Bool) (n : Nat) (ok : Nat → Bool) : (if b then some n else none).all ok = true ↔ (b = true → ok n = true) := by
  cases b <;> simp

theorem givenSettings_inRange : (givenSettings mask m w p q r).inRange = true ↔
    (mask.getLsbD 0 = true → 1 ≤ m.toNat ∧ m.toNat ≤ 15) ∧ (mask.getLsbD 1 = true → 8 ≤ w.toNat)
      ∧ (mask.getLsbD 2 = true → p.toNat = 0 ∨ 4 ≤ p.toNat) ∧ (mask.getLsbD 3 = true → 8 ≤ q.toNat)
      ∧ (mask.getLsbD 4 = true → r.toNat ≤ 128) := by
  have hw := w.isLt
  have hp := p.isLt
  have hq := q.isLt
  simp only [GivenSettings.inRange, givenSettings, Bool.and_eq_true, all_given, missLimitOk, windowLimitOk, probeIntervalOk,
    quietLimitOk, receiveReserveOk, decide_eq_true_eq, and_assoc]
  grind

theorem reserveInUse_given : s.reserveInUse (givenSettings mask m w p q r) = true ↔ mask.getLsbD 4 = true ∧ 256 - r.toNat < s.txHeld := by
  unfold State.reserveInUse givenSettings
  cases mask.getLsbD 4 <;> simp [Config.poolBlocks]

theorem getD_given (b : Bool) (n old : Nat) : (if b then some n else none).getD old = if b = true then n else old := by
  cases b <;> rfl

theorem lineSet_of_none {body : List Octet} (h : parseLineSet body = none) : lineSet body s = answer s .badArg := by
  unfold lineSet
  rw [h]

theorem lineSet_of_some {body : List Octet} {g : GivenSettings} (h : parseLineSet body = some g) :
    lineSet body s = if g.inRange = false then answer s .badArg
      else if s.reserveInUse g then answer s .inUse (o16 s.txHeld)
      else answer { s with line := { s.line with settings := g.over s.line.settings } } .ok (oSettings (g.over s.line.settings)) := by
  unfold lineSet
  rw [h]

end

/-- Settles O17: the three answers of LINE.SET. -/
theorem lineSettingsSet : Obligations.LineSettingsSet := by
  intro s tag mask m w p q r h given ok new
  have hok : ok ↔ mask.toNat < 32 ∧ (givenSettings mask m w p q r).inRange = true :=
    and_congr_right fun _ => givenSettings_inRange.symm
  refine ⟨fun hno => ?_, fun hyes huse => ?_, fun hyes huse => ?_⟩
  · refine gives_unchanged (work := lineSet [mask, m, w, p, q, r]) (r := .badArg) rfl h ?_
    by_cases hmask : mask.toNat < 32
    · have hrange : (givenSettings mask m w p q r).inRange = false := by
        simpa using fun hr => hno (hok.mpr ⟨hmask, hr⟩)
      exact (lineSet_of_some (parseLineSet_eq.trans (if_pos hmask))).trans (if_pos hrange)
    · exact lineSet_of_none (parseLineSet_eq.trans (if_neg hmask))
  all_goals
    obtain ⟨hmask, hrange⟩ := hok.mp hyes
    have hset := (lineSet_of_some (s := s.afterTaking) ((parseLineSet_eq (m := m) (w := w) (p := p) (q := q) (r := r)).trans
      (if_pos hmask))).trans (if_neg (by simp [hrange]))
  · exact gives_unchanged (work := lineSet [mask, m, w, p, q, r]) (r := .inUse) rfl h
      (hset.trans (if_pos (reserveInUse_given.mpr huse)))
  · have hover : (givenSettings mask m w p q r).over s.line.settings = new := by
      simp only [GivenSettings.over, givenSettings, getD_given]
      rfl
    rw [if_neg fun hin => huse ((reserveInUse_given (s := s.afterTaking) (m := m) (w := w) (p := p) (q := q)).mp hin)] at hset
    rw [show s.afterTaking.line = s.line from rfl, hover] at hset
    exact gives_changed (work := lineSet [mask, m, w, p, q, r]) (r := .ok) rfl h hset rfl rfl

end Sys2Proof.Machine
end

section
/-! SUPPORT. The requests that read (R20, R88, R138): the octets of their replies; O18. -/

namespace Sys2Proof.Machine

section
variable {c : Instr} {s : State} {f : Frame} {work : State → Answered}

/-- A request that reads answers with its fields. -/
theorem gives_read {r : Result} {fields reply : List Octet} (he : exec c s = serve f work s) (h : CanTake s f)
    (hw : work s.afterTaking = answer s.afterTaking r fields) (hreply : r.code :: fields = reply) :
    Gives c s (s.replied (replyKind f.kind) f.tag reply) :=
  hreply ▸ gives_unchanged he h hw

end

/-! ## STATS (R20) -/

theorem statsLink_afterTaking (s : State) : s.afterTaking.statsLink =
    [BitVec.ofNat 8 s.link.rate] ++ o16 s.link.faultCount
      ++ [BitVec.ofNat 8 (s.link.intake.length - 1), BitVec.ofNat 8 s.link.replies.length] := by
  rw [← List.length_tail]
  rfl

/-! ## SLOT.MAP (R88) -/

theorem oMapEntry_octets (x : Option MapEntry) : oMapEntry x = match x with
    | none => [0x00#8, 0xFF#8]
    | some e => [match e.owner with | .lane k => BitVec.ofNat 8 (0x10 + k) | .circuit k => BitVec.ofNat 8 (0x20 + k),
      BitVec.ofNat 8 e.prec] := by
  cases x with
  | none => rfl
  | some e =>
    obtain ⟨o, p⟩ := e
    cases o <;> rfl

theorem oReclaimEntry_octets (e : ReclaimEntry) : oReclaimEntry e =
    [match e.owner with | .lane k => BitVec.ofNat 8 (0x10 + k) | .circuit k => BitVec.ofNat 8 (0x20 + k),
      BitVec.ofNat 8 (e.slot + (match e.dir with | .down => 0 | .up => 128)), BitVec.ofNat 8 e.prec] := by
  obtain ⟨o, d, x, p⟩ := e
  have hdir : 128 * d.code + x = x + (match d with | .down => 0 | .up => 128) := by
    cases d
    · exact Nat.add_comm 0 x
    · exact Nat.add_comm 128 x
  unfold oReclaimEntry
  rw [hdir]
  cases o <;> rfl

theorem oCircuit_octets (x : Nat × Circuit) : oCircuit x =
    [BitVec.ofNat 8 x.1, BitVec.ofNat 8 x.2.source, BitVec.ofNat 8 x.2.up.length, BitVec.ofNat 8 x.2.prec,
      match x.2.state with | .live => 0#8 | .muted => 1#8 | .displaced => 2#8 | .closed => 3#8]
      ++ x.2.up.map (BitVec.ofNat 8) ++ x.2.down.map (BitVec.ofNat 8) := by
  unfold oCircuit
  rw [flatMap_o8, flatMap_o8]
  cases x.2.state <;> rfl

/-! ## LANE.READ (R138) -/

section
variable {s : State} {l : Octet}

theorem laneRead_of_lane (h : l.toNat < 4) : laneRead [l] s = answer s .ok (s.laneFields l.toNat) := if_neg (Nat.not_le_of_lt h)

theorem laneRead_of_no_lane (h : 4 ≤ l.toNat) : laneRead [l] s = answer s .badArg := if_pos h

end

/-- Settles O18: the fields of the three replies. -/
theorem readsChangeNothing : Obligations.ReadsChangeNothing := by
  intro s tag one two four bit opt list blocks laneBlocks boxBlocks owner
  refine ⟨fun h => ?_, fun h => ?_, fun l h => ⟨fun hl => ?_, fun hl => ?_⟩⟩
  · intro e r line pool window receiver link
    refine gives_read (work := stats []) (r := .ok) rfl h rfl ?_
    have hline : s.statsLine = line := statsLine_octets s
    have hpool : s.statsPool = pool := statsPool_octets s
    have hwindow : s.statsWindow = window := statsWindow_octets s
    have hreceiver : s.statsReceiver = receiver := statsReceiver_octets s
    have hlink : s.afterTaking.statsLink = link := statsLink_afterTaking s
    rw [← hline, ← hpool, ← hwindow, ← hreceiver, ← hlink]
    rfl
  · intro entries waiting open_ circuits
    refine gives_read (work := slotMap []) (r := .ok) rfl h rfl ?_
    have hentries : ∀ m, m.flatMap oMapEntry = entries m := fun m => congrArg (fun g => m.flatMap g) (funext oMapEntry_octets)
    have hwaiting : oList oReclaimEntry s.slots.reclaim = waiting :=
      congrArg (fun g => oList g s.slots.reclaim) (funext oReclaimEntry_octets)
    have hcircuits : oList oCircuit s.openCircuits = circuits :=
      congrArg (fun g => oList g s.openCircuits) (funext oCircuit_octets)
    rw [← hentries, ← hentries, ← hwaiting, ← hcircuits]
    rfl
  · exact gives_read (work := laneRead [l]) (r := .ok) rfl h (laneRead_of_lane hl) (congrArg (List.cons 0x00#8) (laneFields_octets s l.toNat))
  · exact gives_unchanged (work := laneRead [l]) (r := .badArg) rfl h (laneRead_of_no_lane hl)

end Sys2Proof.Machine
end

section
/-! SUPPORT. Cycle starts of a line that is not RUNNING, and cycle ends (R8, R11, R12); O19, O20, O24. -/

namespace Sys2Proof.Machine

section
variable {s : State}

/-! ## Cycle starts -/

theorem canStart_iff : s.canStart = true ↔ s.pin = .high ∧ s.line.cycleOpen = false ∧ (s.line.state = .starting ∨ s.line.state = .running) :=
  decide_eq_true_iff

theorem exec_cycleStart (h : s.canStart = true) : exec .cycleStart s = event s.startCycle := if_pos h

theorem exec_runningReached (h : s.canStart = true) (hr : s.reachesRunning = true) :
    exec .runningReached s = event s.advance.becomeRunning.runningStart := by
  show execRunningReached s = _
  rw [execRunningReached, h, hr]
  rfl

theorem exec_runningReached_skip (h : s.canStart = false ∨ s.reachesRunning = false) : exec .runningReached s = .next s := by
  show execRunningReached s = _
  unfold execRunningReached
  obtain h | h := h
  · rw [h]
    rfl
  · rw [h, Bool.and_false]
    rfl

theorem exec_windowOverrun_skip (h : s.canStartRunning = false ∨ s.windowOver = false) : exec .windowOverrun s = .next s := by
  show execWindowOverrun s = _
  unfold execWindowOverrun
  obtain h | h := h
  · rw [h]
    rfl
  · rw [h, Bool.and_false]
    rfl

theorem exec_gapEnd_skip (l : Nat) (h : s.canStartRunning = false) : exec (.gapEnd l) s = .next s := by
  show execGapEnd l s = _
  unfold execGapEnd
  rw [h]
  rfl

theorem reachesRunning_iff : s.reachesRunning = true ↔ s.line.state = .starting ∧ 16 ≤ s.line.startCount := decide_eq_true_iff

theorem startCycle_of_starting (h : s.line.state = .starting) (hc : s.line.startCount < 16) : s.startCycle = s.advance.startingStart := by
  have hno : s.reachesRunning = false := by
    rw [Bool.eq_false_iff]
    exact fun hr => absurd (reachesRunning_iff.mp hr).2 (Nat.not_le_of_lt hc)
  unfold State.startCycle
  rw [hno, h]
  rfl

theorem startCycle_of_reaches (h : s.reachesRunning = true) : s.startCycle = s.advance.becomeRunning.runningStart := if_pos h

/-! ## The circuits when the line reaches RUNNING (R83) -/

/-- Two states that agree but for the circuits and the report unit. -/
theorem changeCircuits_eq_with (p : Circuit → Bool) (new : CircuitState) (reason : CircuitReason) :
    s.changeCircuits p new reason
      = { s with circuits := (s.changeCircuits p new reason).circuits, rep := (s.changeCircuits p new reason).rep } := by
  obtain ⟨hline, hpoll, hnotes, hslots, hlanes, hhandle, hwindow, hrx, hmail, hfree, hlink, hpin, hchoices, hpending, -⟩ :=
    State.changeCircuits_frame s p new reason
  generalize s.changeCircuits p new reason = t at *
  cases t
  simp_all

theorem circuits_eq_map {t : State} (hlen : t.circuits.length = s.circuits.length) {g : Circuit → Circuit}
    (h : ∀ n, t.circuit n = (s.circuit n).map g) : t.circuits = s.circuits.map (Option.map g) := by
  refine List.ext_getElem (hlen.trans (List.length_map _).symm) fun n ht hs => ?_
  rw [List.length_map] at hs
  have hn := h n
  rw [State.circuit, State.circuit, List.getElem?_eq_getElem ht, List.getElem?_eq_getElem hs] at hn
  rw [List.getElem_map]
  exact hn

theorem changeCircuits_eq (hlen : s.circuits.length = 12) (p : Circuit → Bool) (new : CircuitState) (reason : CircuitReason) :
    s.changeCircuits p new reason
      = { s with
          circuits := s.circuits.map (Option.map fun c => if p c then { c.silence with state := new } else c)
          rep := ((List.range 12).filterMap fun n => (s.circuit n).bind fun c =>
            if p c then some (Report.circuitState n c.source new c.state reason none s.now) else none).foldl ReportUnit.handOver s.rep } := by
  obtain ⟨hcircuits, hlen', hrep⟩ := changeCircuits_spec p new reason s hlen
  rw [changeCircuits_eq_with, hrep, circuits_eq_map (hlen'.trans hlen.symm) hcircuits]

/-- A circuit goes MUTED when the line reaches RUNNING. -/
theorem muted_iff (a : Nat) (c : Circuit) : (decide (c.state = .live) && !s.isOnline a) = true ↔ c.state = .live ∧ (s.station a).state ≠ .online := by
  simp [State.isOnline]

/-- The line is RUNNING, by the cycle start that reaches it, and its report is handed over (R8, R18). -/
def State.lineReached (s : State) : State :=
  { s with
    line := { s.line with state := .running, cycleCounter := s.line.cycleCounter + 1, cycleOpen := true }
    rep := s.rep.handOver (.lineState .running s.line.state .runningReached (s.line.cycleCounter + 1)) }

theorem becomeRunning_advance : s.advance.becomeRunning = s.lineReached.muteSourceless := rfl

/-- The cycle start that reaches RUNNING: LINE_STATE, then the LIVE circuits without an ONLINE source (R8, R83). -/
theorem becomeRunning_eq (hst : s.line.state = .starting) (hlen : s.circuits.length = 12) :
    s.advance.becomeRunning = State.advance
      { s with
        line := { s.line with state := .running }
        circuits := s.circuits.map (Option.map fun k =>
          if k.state = .live ∧ (s.station k.source).state ≠ .online then { k.emptied with state := .muted } else k)
        rep :=
          (Report.lineState .running .starting .runningReached (s.line.cycleCounter + 1)
            :: (List.range 12).filterMap fun n => (s.circuit n).bind fun k =>
              if k.state = .live ∧ (s.station k.source).state ≠ .online then
                some (.circuitState n k.source .muted .live .sourceLeft none (s.line.cycleCounter + 1))
              else none).foldl ReportUnit.handOver s.rep } := by
  have hmuted : (fun k : Circuit => if (decide (k.state = .live) && !s.isOnline k.source) = true then { k.silence with state := .muted } else k)
      = fun k => if k.state = .live ∧ (s.station k.source).state ≠ .online then { k.emptied with state := .muted } else k :=
    funext fun k => if_congr (muted_iff k.source k) rfl rfl
  have hreports : (fun n => (s.circuit n).bind fun k => if (decide (k.state = .live) && !s.isOnline k.source) = true then
        some (Report.circuitState n k.source .muted k.state .sourceLeft none (s.line.cycleCounter + 1)) else none)
      = fun n => (s.circuit n).bind fun k => if k.state = .live ∧ (s.station k.source).state ≠ .online then
        some (.circuitState n k.source .muted .live .sourceLeft none (s.line.cycleCounter + 1)) else none := by
    refine funext fun n => congrArg (Option.bind _) (funext fun k => ?_)
    by_cases hk : k.state = .live ∧ (s.station k.source).state ≠ .online
    · rw [if_pos ((muted_iff k.source k).mpr hk), if_pos hk, hk.1]
    · rw [if_neg fun h => hk ((muted_iff k.source k).mp h), if_neg hk]
  rw [← hmuted, ← hreports, List.foldl_cons, ← hst]
  rw [becomeRunning_advance, State.muteSourceless, changeCircuits_eq (s := s.lineReached) hlen]
  rfl

end

/-! ## Cycle ends (R12) -/

section
variable {s : State} {marker : Bool} {readback : List (Nat × Octet)}

theorem inCycle_iff : s.inCycle = true ↔ s.pin = .high ∧ s.line.cycleOpen = true ∧ (s.line.state = .starting ∨ s.line.state = .running) :=
  decide_eq_true_iff

theorem exec_cycleEnd (h : s.inCycle = true) : exec (.cycleEnd marker readback) s = event (s.endCycle (s.matches marker readback)) :=
  if_pos h

theorem exec_cycleEnd_skip (h : s.inCycle = false) : exec (.cycleEnd marker readback) s = .next s := if_neg (Bool.eq_false_iff.mp h)

/-- The state in which a verdict against the part brings the mismatch count up (R12). -/
def State.mismatched (s : State) : State :=
  { s with line := { s.line with mismatchCount := s.line.mismatchCount + 1, cycleOpen := false } }

theorem exec_readbackFault (h : s.inCycle = true) (hm : s.matches marker readback = false) (hc : 8 ≤ s.line.mismatchCount + 1) :
    exec (.readbackFault marker readback) s = event s.mismatched.faultLine := by
  show execReadbackFault marker readback s = _
  unfold execReadbackFault
  rw [h, hm, if_pos (by simpa [Config.readbackLimit] using hc)]
  rfl

theorem exec_readbackFault_skip (h : s.inCycle = false ∨ s.matches marker readback = true ∨ s.line.mismatchCount + 1 < 8) :
    exec (.readbackFault marker readback) s = .next s := by
  show execReadbackFault marker readback s = _
  unfold execReadbackFault
  refine if_neg fun hall => ?_
  simp only [Bool.and_eq_true, Bool.not_eq_true', decide_eq_true_eq, Config.readbackLimit] at hall
  obtain ⟨⟨hin, hmatch⟩, hcount⟩ := hall
  obtain h | h | h := h
  · exact absurd (hin.symm.trans h) (by decide)
  · exact absurd (hmatch.symm.trans h) (by decide)
  · omega

theorem countStart_eq (e : LineEngine) : e.countStart = { e with startCount := if e.state = .starting then e.startCount + 1 else e.startCount } := by
  unfold LineEngine.countStart
  split <;> rfl

theorem endCycle_good : s.endCycle true = { s with line := { s.line with mismatchCount := 0, cycleOpen := false }.countStart } := rfl

theorem endCycle_bad (h : s.line.mismatchCount + 1 < 8) :
    s.endCycle false = { s with line := { s.line with mismatchCount := s.line.mismatchCount + 1, cycleOpen := false }.countStart } :=
  (if_neg (by decide)).trans (if_neg (Nat.not_le_of_lt h))

theorem endCycle_fault (h : 8 ≤ s.line.mismatchCount + 1) : s.endCycle false = s.mismatched.faultLine :=
  (if_neg (by decide)).trans (if_pos h)

end

/-- Settles O19: the STARTING cycle's start, and the pair while none runs. -/
theorem startingCycleStarts : Obligations.StartingCycleStarts := by
  intro s
  refine ⟨fun hpin hopen hst hc => ?_, fun hno => ?_, fun o => ⟨slotBits_eq o, octetOfSlotBits_getLsbD o⟩, downPair_inCycle s,
    fun hno n b => downPair_undriven s hno n b, rfl⟩
  · refine gives_of_event _ _ (exec_cycleStart (canStart_iff.mpr ⟨hpin, hopen, .inl hst⟩)) ?_
    rw [startCycle_of_starting hst hc]
    rfl
  · have hstart : s.canStart = false := by
      rw [Bool.eq_false_iff]
      intro h
      obtain ⟨hpin, hopen, hst⟩ := canStart_iff.mp h
      simp [hpin, hopen] at hno
      obtain hst | hst := hst
      · simp [hst] at hno
      · simp [hst] at hno
    have hrun : s.canStartRunning = false := by rw [State.canStartRunning, hstart, Bool.false_and]
    exact ⟨if_neg (Bool.eq_false_iff.mp hstart), exec_runningReached_skip (.inl hstart), exec_windowOverrun_skip (.inl hrun),
      fun l => exec_gapEnd_skip l hrun⟩

/-- Settles O20: the cycle start that reaches RUNNING is the RUNNING line's on the state with its circuits muted. -/
theorem sixteenthCycleReachesRunning : Obligations.SixteenthCycleReachesRunning := by
  intro s
  refine ⟨fun c hc hpin hopen hst hcount hs => ?_, fun hno => ?_⟩
  · intro running
    have hstart : s.canStart = true := canStart_iff.mpr ⟨hpin, hopen, .inl hst⟩
    have hreach : s.reachesRunning = true := reachesRunning_iff.mpr ⟨hst, hcount⟩
    have hexec : exec c s = event s.advance.becomeRunning.runningStart := by
      obtain rfl | rfl := hc
      · rw [exec_cycleStart hstart, startCycle_of_reaches hreach]
      · exact exec_runningReached hstart hreach
    have hrunning : exec .cycleStart running = event running.advance.runningStart := by
      rw [exec_cycleStart (s := running) (canStart_iff.mpr ⟨hpin, hopen, .inr rfl⟩), startCycle_of_running (s := running) rfl]
    have hsame : s.advance.becomeRunning = running.advance := becomeRunning_eq hst hs.circuits
    exact ⟨by rw [hexec, hrunning, hsame], _, gives_of_event _ _ hexec rfl⟩
  · refine exec_runningReached_skip (.inr ?_)
    rw [Bool.eq_false_iff]
    exact fun h => hno (reachesRunning_iff.mp h)

/-- Settles O24: the verdicts of a cycle, by the match and the count. -/
theorem cycleVerdict : Obligations.CycleVerdict := by
  intro s marker readback matched count faulted
  have hmatch : s.matches marker readback = true ↔ matched := matches_iff s marker readback
  have hfalse : ¬matched → s.matches marker readback = false := fun hno => Bool.eq_false_iff.mpr fun h => hno (hmatch.mp h)
  refine ⟨fun hno => ?_, fun hpin hopen hst => ?_⟩
  · have hin : s.inCycle = false := Bool.eq_false_iff.mpr fun h => hno (inCycle_iff.mp h)
    exact ⟨exec_cycleEnd_skip hin, exec_readbackFault_skip (.inl hin)⟩
  have hin : s.inCycle = true := inCycle_iff.mpr ⟨hpin, hopen, hst⟩
  refine ⟨fun hyes => ?_, fun hno hbelow => ?_, fun hskip => ?_, fun c hc hno hlimit => ?_⟩
  · refine gives_of_event _ _ (exec_cycleEnd hin) ?_
    rw [hmatch.mpr hyes, endCycle_good, countStart_eq]
  · refine gives_of_event _ _ (exec_cycleEnd hin) ?_
    rw [hfalse hno, endCycle_bad hbelow, countStart_eq]
  · exact exec_readbackFault_skip (.inr (hskip.imp_left hmatch.mpr))
  have hexec : exec c s = event s.mismatched.faultLine := by
    obtain rfl | rfl := hc
    · rw [exec_cycleEnd hin, hfalse hno, endCycle_fault hlimit]
    · exact exec_readbackFault hin (hfalse hno) hlimit
  refine ⟨fun hstarting => ?_, fun hrun hs hl hw => ?_⟩
  · refine gives_of_event _ _ hexec ?_
    have hne : s.mismatched.line.state ≠ .running := by
      show s.line.state ≠ .running
      rw [hstarting]
      decide
    refine (if_neg hne).trans ?_
    rw [← hstarting]
    rfl
  · have hend := lineDown_outcome hs hl hw (l := faulted) rfl rfl (r := .lineState .faulted .running .readback s.line.cycleCounter)
      (x := { s with line := faulted, rep := s.rep.handOver (.lineState .faulted .running .readback s.line.cycleCounter) }) rfl
    refine ⟨_, gives_of_event _ _ hexec ?_, hend⟩
    refine (if_pos (show s.mismatched.line.state = .running from hrun)).trans ?_
    rw [← hrun]
    rfl

end Sys2Proof.Machine
end

section
/-! SUPPORT. The station requests (2.7); O25 to O28. -/

namespace Sys2Proof.Machine

section
variable {c : Instr} {s : State} {f : Frame} {work : State → Answered}

/-- A request that changes one station entry, and its answer. -/
theorem gives_modStation {r : Result} {fields : List Octet} (a : Nat) (g : Station → Station) (he : exec c s = serve f work s)
    (h : CanTake s f) (hw : work s.afterTaking = answer (s.afterTaking.modStation a g) r fields) :
    Gives c s ((s.modStation a g).replied (replyKind f.kind) f.tag (r.code :: fields)) := by
  refine gives_of_serve f work _ he h ?_
  rw [hw]
  exact afterTaking_modStation_queueReply s a g _ _ _

end

theorem isStation_false_iff (n : Nat) : isStation n = false ↔ ¬(1 ≤ n ∧ n ≤ 30) := by
  rw [Bool.eq_false_iff]
  exact not_congr (isStation_true_iff n)

theorem stationAndLane_iff (a l : Nat) : (isStation a && isLane l) = true ↔ (1 ≤ a ∧ a ≤ 30) ∧ l ≤ 3 := by
  rw [Bool.and_eq_true, isStation_true_iff, isLane, decide_eq_true_iff, Config.lanes, Nat.lt_succ_iff]

/-! ## STATION.ENROL (R41) -/

section
variable {s : State} {a l : Octet}

theorem stationEnrol_eq : stationEnrol [a, l] s = if (isStation a.toNat && isLane l.toNat) = false then answer s .badArg
    else if (s.station a.toNat).state = .free then answer (s.modStation a.toNat fun _ => .enrolled l.toNat) .ok
    else answer s .badState := rfl

theorem stationBind_eq : stationBind [a, l] s = if (isStation a.toNat && isLane l.toNat) = false then answer s .badArg
    else if (s.station a.toNat).state = .free then answer s .badState
    else if s.ownsWindow a.toNat then answer s .busy
    else answer (s.modStation a.toNat fun t => { t with lane := l.toNat }) .ok := rfl

theorem stationUnbar_eq : stationUnbar [a] s = if isStation a.toNat = false then answer s .badArg
    else if (s.station a.toNat).state = .barred then
      answer (s.modStation a.toNat fun t => { t with state := .offline, missCount := 0, candidate := none }) .ok
    else answer s .badState := rfl

theorem stationWithdraw_eq : stationWithdraw [a] s = if isStation a.toNat = false then answer s .badArg
    else if s.isSource a.toNat then answer s .inUse
    else if (s.station a.toNat).state = .free then answer s .badState
    else answer (s.withdraw a.toNat) .ok := rfl

theorem stationBar_of_no_station (h : ¬(1 ≤ a.toNat ∧ a.toNat ≤ 30)) : stationBar [a] s = answer s .badArg :=
  if_pos ((isStation_false_iff _).mpr h)

section
variable (h : 1 ≤ a.toNat ∧ a.toNat ≤ 30)
include h

theorem stationBar_free (ht : (s.station a.toNat).state = .free) : stationBar [a] s = answer s .badState := by
  unfold stationBar
  simp only [(isStation_true_iff _).mpr h, ht]
  rfl

theorem stationBar_barred (ht : (s.station a.toNat).state = .barred) : stationBar [a] s = answer s .ok := by
  unfold stationBar
  simp only [(isStation_true_iff _).mpr h, ht]
  rfl

theorem stationBar_taken (hf : (s.station a.toNat).state ≠ .free) (hb : (s.station a.toNat).state ≠ .barred) :
    stationBar [a] s = answer (s.bar a.toNat) .ok := by
  unfold stationBar
  simp only [(isStation_true_iff _).mpr h]
  generalize (s.station a.toNat).state = t at hf hb
  cases t with
  | free => exact absurd rfl hf
  | barred => exact absurd rfl hb
  | offline | joining | online | silent => rfl

end

theorem ownsWindow_iff : s.ownsWindow a.toNat = true ↔ ∃ w, s.window.window = some w ∧ w.owner = a.toNat := by
  unfold State.ownsWindow
  rw [Option.any_eq_true]
  simp only [decide_eq_true_eq]

end

/-- Settles O25: the three answers of STATION.ENROL. -/
theorem enrolMakesOffline : Obligations.EnrolMakesOffline := by
  intro s _ a l h inRange
  have hrange : (isStation a.toNat && isLane l.toNat) = true ↔ inRange := stationAndLane_iff a.toNat l.toNat
  refine ⟨fun hno => ?_, fun hin hst => ?_, fun hin hst => ?_⟩
  · refine gives_unchanged (work := stationEnrol [a, l]) (r := .badArg) rfl h ?_
    rw [stationEnrol_eq, if_pos (Bool.eq_false_iff.mpr fun hyes => hno (hrange.mp hyes))]
  all_goals
    have hpass := hrange.mpr hin
  · refine gives_unchanged (work := stationEnrol [a, l]) (r := .badState) rfl h ?_
    rw [stationEnrol_eq, hpass, if_neg (by decide), afterTaking_station, if_neg hst]
  · refine gives_modStation (work := stationEnrol [a, l]) (r := .ok) _ _ rfl h ?_
    rw [stationEnrol_eq, hpass, if_neg (by decide), afterTaking_station, if_pos hst]
    rfl

/-! ## STATION.WITHDRAW and STATION.BAR (R42, R43) -/

/-- What a station's leaving by a request gives, the station's own entry apart: a departure from ONLINE, or the failure of its
notes alone. -/
def Leaves (s : State) (a : Nat) (new : StationState) (reason : StationReason) (u : State) : Prop :=
  ((s.station a).state = .online → Departure s u a ∧ u.rep = s.departureReports a new reason)
    ∧ ((s.station a).state ≠ .online → (∀ b, b ≠ a → u.station b = s.station b)
      ∧ u.poll = { s.poll with stations := u.poll.stations }
      ∧ u.notes = { s.notes with store := s.notes.store.filter fun n => decide (n.station ≠ a) }
      ∧ u.window = s.window ∧ u.rx = s.rx ∧ u.circuits = s.circuits ∧ u.slots = s.slots ∧ u.lanes = s.lanes
      ∧ u.mailboxes = s.mailboxes ∧ u.free = s.free ∧ u.rep = s.lostNotesReports a s.rep)
    ∧ u.line = s.line ∧ Apart s u

section
variable {s u : State} {a : Nat} {new : StationState} {reason : StationReason}

theorem isOnline_iff : s.isOnline a = true ↔ (s.station a).state = .online := decide_eq_true_iff

/-- The departing of a station whose entry was changed first. -/
theorem departs_leaves (hs : Shape s) (hl : LiveHandles s) (h₁ : 1 ≤ a) (h₂ : a ≤ 30) (f : Station → Station) :
    Leaves s a new reason ((s.modStation a f).departs a (s.isOnline a) new reason) := by
  have hn : ((s.modStation a f).notes.store.map (·.handle)).Nodup := by
    rw [State.modStation_notes]
    exact (List.nodup_append.mp hl.notes).1
  have hrep := departs_rep (s.modStation a f) a (s.isOnline a) new reason (hs.modStation a f)
  obtain ⟨-, hdeparture, hothers, hnotes⟩ := departs_spec (s.modStation a f) a new reason (hs.modStation a f) hn h₁ h₂
  refine ⟨fun hon => ?_, fun hoff => ?_, by simp, ?_⟩
  · rw [isOnline_iff.mpr hon] at hrep ⊢
    exact ⟨hdeparture.of_modStation, hrep.trans (departureReports_modStation s a f a new reason)⟩
  · rw [Bool.eq_false_iff.mpr fun h => hoff (isOnline_iff.mp h)] at hrep ⊢
    have hlost : (s.modStation a f).lostNotesReports a (s.modStation a f).rep = s.lostNotesReports a s.rep := by
      unfold State.lostNotesReports
      rw [State.modStation_notes, State.modStation_line, State.modStation_rep]
    refine ⟨fun b hb => (hothers b hb).trans (State.station_modStation_ne _ _ _ _ hb), ?_, ?_, ?_⟩
    · exact PollUnit.eq_with_stations (by simp) (by simp) (by simp)
    · rw [hnotes, State.modStation_notes]
    · rw [departs_false] at hrep ⊢
      exact ⟨by simp, by simp, by simp, by simp, by simp, by simp, by simp, hrep.trans hlost⟩
  · constructor <;> simp

theorem Leaves.modStation (h : Leaves s a new reason u) (g : Station → Station) : Leaves s a new reason (u.modStation a g) := by
  obtain ⟨hon, hoff, hline, hapart⟩ := h
  refine ⟨fun ho => ?_, fun ho => ?_, by simpa using hline, hapart.after (.modStation u a g)⟩
  · obtain ⟨hdeparture, hrep⟩ := hon ho
    exact ⟨hdeparture.modStation, by simpa using hrep⟩
  · obtain ⟨hothers, hpoll, hnotes, hrest⟩ := hoff ho
    refine ⟨fun b hb => (State.station_modStation_ne _ _ _ _ hb).trans (hothers b hb), ?_, by simpa using hnotes, by simpa using hrest⟩
    obtain ⟨hpointer, hprobe, hcall⟩ := State.modStation_calls_frame u a g
    refine PollUnit.eq_with_stations (hpointer.trans ?_) (hprobe.trans ?_) (hcall.trans ?_)
    all_goals rw [hpoll]

theorem Leaves.apart (h : Leaves s a new reason u) : Apart s u := h.2.2.2

theorem Leaves.with_link (h : Leaves s.afterTaking a new reason u) : Leaves s a new reason { u with link := s.link } := by
  obtain ⟨hon, hoff, hline, hapart⟩ := h
  rw [afterTaking_station] at hon hoff
  refine ⟨fun ho => ?_, fun ho => ?_, hline, ⟨rfl, hapart.pin, hapart.handles, hapart.sent, hapart.choices, hapart.pending⟩⟩
  · obtain ⟨hdeparture, hrep⟩ := hon ho
    exact ⟨hdeparture.with_link, hrep.trans (departureReports_afterTaking s a new reason)⟩
  · obtain ⟨hothers, hpoll, hnotes, hwindow, hrx, hcircuits, hslots, hlanes, hmail, hfree, hrep⟩ := hoff ho
    exact ⟨fun b hb => (station_with_link u s.link b).trans ((hothers b hb).trans (afterTaking_station s b)), hpoll, hnotes, hwindow,
      hrx, hcircuits, hslots, hlanes, hmail, hfree, hrep.trans (lostNotesReports_afterTaking s a s.rep)⟩

/-- The station's own entry after the departing. -/
theorem departs_station (hs : Shape s) (hl : LiveHandles s) (h₁ : 1 ≤ a) (h₂ : a ≤ 30) (f : Station → Station) (on : Bool) :
    ((s.modStation a f).departs a on new reason).station a =
      { f (s.station a) with abortPending := (f (s.station a)).abortPending || s.inFlightFor a } := by
  have hn : ((s.modStation a f).notes.store.map (·.handle)).Nodup := by
    rw [State.modStation_notes]
    exact (List.nodup_append.mp hl.notes).1
  obtain ⟨hstation, -⟩ := departs_spec (s.modStation a f) a new reason (hs.modStation a f) hn h₁ h₂
  rw [(hstation on).1, inFlightFor_modStation, State.station_modStation_self s a f h₁ (hs.stations ▸ h₂)]

theorem withdraw_leaves (hs : Shape s) (hl : LiveHandles s) (h₁ : 1 ≤ a) (h₂ : a ≤ 30) : Leaves s a .free .withdraw (s.withdraw a) :=
  (departs_leaves hs hl h₁ h₂ _).modStation _

theorem withdraw_station (hs : Shape s) (hl : LiveHandles s) (h₁ : 1 ≤ a) (h₂ : a ≤ 30) : (s.withdraw a).station a =
    { s.station a with
      state := .free, accepted := none, candidate := none, missCount := 0, busyRun := 0, unackedPolls := 0
      abortPending := false, heard := false } := by
  have hlen : ((s.modStation a fun t => { t with state := .free }).departs a (s.isOnline a) .free .withdraw).poll.stations.length = 30 := by
    have hn : ((s.modStation a fun t => { t with state := .free }).notes.store.map (·.handle)).Nodup := by
      rw [State.modStation_notes]
      exact (List.nodup_append.mp hl.notes).1
    obtain ⟨hstation, -⟩ := departs_spec (s.modStation a fun t => { t with state := .free }) a .free .withdraw (hs.modStation a _) hn h₁ h₂
    exact (hstation _).2
  unfold State.withdraw
  rw [State.station_modStation_self _ a _ h₁ (hlen ▸ h₂), departs_station hs hl h₁ h₂]
  rfl

theorem bar_leaves (hs : Shape s) (hl : LiveHandles s) (h₁ : 1 ≤ a) (h₂ : a ≤ 30) : Leaves s a .barred .bar (s.bar a) :=
  departs_leaves hs hl h₁ h₂ _

theorem bar_station (hs : Shape s) (hl : LiveHandles s) (h₁ : 1 ≤ a) (h₂ : a ≤ 30) : (s.bar a).station a =
    { s.station a with
      state := .barred, missCount := 0, candidate := none
      abortPending := (s.station a).abortPending || s.inFlightFor a } :=
  departs_station hs hl h₁ h₂ _ _

theorem LiveHandles.afterTaking (h : LiveHandles s) : LiveHandles s.afterTaking := h.of_suffix rfl rfl (List.suffix_refl _)

end

/-- Settles O26: the answers of the two requests, by the station's state. -/
theorem withdrawAndBarRemoveStation : Obligations.WithdrawAndBarRemoveStation := by
  intro s _ a hs hl t inRange source gone
  have hfree : inRange → isStation a.toNat = true := (isStation_true_iff _).mpr
  have hsource : s.afterTaking.isSource a.toNat = true ↔ source := isSource_iff s.afterTaking a.toNat hs.circuits
  refine ⟨fun h => ⟨fun hno => ?_, fun hin hsrc => ?_, fun hin hsrc hst => ?_, fun hin hsrc hst => ?_⟩,
    fun h => ⟨fun hno => ?_, fun hin hst => ?_, fun hin hst => ?_, fun hin hf hb => ?_⟩⟩
  · refine gives_unchanged (work := stationWithdraw [a]) (r := .badArg) rfl h ?_
    rw [stationWithdraw_eq, if_pos ((isStation_false_iff _).mpr hno)]
  · refine gives_unchanged (work := stationWithdraw [a]) (r := .inUse) rfl h ?_
    rw [stationWithdraw_eq, hfree hin, if_neg (by decide), if_pos (hsource.mpr hsrc)]
  · refine gives_unchanged (work := stationWithdraw [a]) (r := .badState) rfl h ?_
    rw [stationWithdraw_eq, hfree hin, if_neg (by decide), if_neg fun hyes => hsrc (hsource.mp hyes), afterTaking_station, if_pos hst]
  · have hw : stationWithdraw [a] s.afterTaking = answer (s.afterTaking.withdraw a.toNat) .ok := by
      rw [stationWithdraw_eq, hfree hin, if_neg (by decide), if_neg fun hyes => hsrc (hsource.mp hyes), afterTaking_station, if_neg hst]
    have hleaves := withdraw_leaves hs.afterTaking hl.afterTaking hin.1 hin.2
    have hstation := withdraw_station hs.afterTaking hl.afterTaking hin.1 hin.2
    refine ⟨_, gives_changed (r := .ok) rfl h hw hleaves.apart.link rfl, hleaves.with_link, ?_⟩
    rw [station_with_link, hstation, afterTaking_station]
  · exact gives_unchanged (work := stationBar [a]) (r := .badArg) rfl h (stationBar_of_no_station hno)
  · exact gives_unchanged (work := stationBar [a]) (r := .badState) rfl h (stationBar_free hin ((congrArg _ (afterTaking_station s _)).trans hst))
  · exact gives_unchanged (work := stationBar [a]) (r := .ok) rfl h (stationBar_barred hin ((congrArg _ (afterTaking_station s _)).trans hst))
  · have hw : stationBar [a] s.afterTaking = answer (s.afterTaking.bar a.toNat) .ok := by
      rw [stationBar_taken hin]
      · rw [afterTaking_station]
        exact hf
      · rw [afterTaking_station]
        exact hb
    have hleaves := bar_leaves hs.afterTaking hl.afterTaking hin.1 hin.2
    have hstation := bar_station hs.afterTaking hl.afterTaking hin.1 hin.2
    refine ⟨_, gives_changed (r := .ok) rfl h hw hleaves.apart.link rfl, hleaves.with_link, ?_⟩
    rw [station_with_link, hstation, afterTaking_station]
    rfl

/-- Settles O27: the answers of the two requests, by the station's state and the window. -/
theorem unbarAndBindChangeEntry : Obligations.UnbarAndBindChangeEntry := by
  intro s _ a inRange
  refine ⟨fun h => ⟨fun hno => ?_, fun hin hst => ?_, fun hin hst => ?_⟩, fun l h => ?_⟩
  · refine gives_unchanged (work := stationUnbar [a]) (r := .badArg) rfl h ?_
    rw [stationUnbar_eq, if_pos ((isStation_false_iff _).mpr hno)]
  · refine gives_unchanged (work := stationUnbar [a]) (r := .badState) rfl h ?_
    rw [stationUnbar_eq, (isStation_true_iff _).mpr hin, if_neg (by decide), afterTaking_station, if_neg hst]
  · refine gives_modStation (work := stationUnbar [a]) (r := .ok) _ _ rfl h ?_
    rw [stationUnbar_eq, (isStation_true_iff _).mpr hin, if_neg (by decide), afterTaking_station, if_pos hst]
  have hrange := stationAndLane_iff a.toNat l.toNat
  refine ⟨fun hno => ?_, fun hin hst => ?_, fun hin hst => ⟨fun w hw how => ?_, fun hnone => ?_⟩⟩
  · refine gives_unchanged (work := stationBind [a, l]) (r := .badArg) rfl h ?_
    rw [stationBind_eq, if_pos (Bool.eq_false_iff.mpr fun hyes => hno (hrange.mp hyes))]
  all_goals
    have hpass := hrange.mpr hin
  · refine gives_unchanged (work := stationBind [a, l]) (r := .badState) rfl h ?_
    rw [stationBind_eq, hpass, if_neg (by decide), afterTaking_station, if_pos hst]
  · refine gives_unchanged (work := stationBind [a, l]) (r := .busy) rfl h ?_
    rw [stationBind_eq, hpass, if_neg (by decide), afterTaking_station, if_neg hst, if_pos (ownsWindow_iff (s := s.afterTaking).mpr ⟨w, hw, how⟩)]
  · refine gives_modStation (work := stationBind [a, l]) (r := .ok) _ _ rfl h ?_
    have howner : ¬s.afterTaking.ownsWindow a.toNat = true := fun hyes => by
      obtain ⟨w, hw, how⟩ := ownsWindow_iff.mp hyes
      exact hnone w hw how
    rw [stationBind_eq, hpass, if_neg (by decide), afterTaking_station, if_neg hst, if_neg howner]

/-! ## STATION.READ (R46) -/

theorem stationFields_octets (t : Station) (a : Octet) : t.fields a.toNat =
    [a, match t.state with | .free => 0#8 | .offline => 1#8 | .joining => 2#8 | .online => 3#8 | .silent => 4#8 | .barred => 5#8,
      BitVec.ofNat 8 t.lane, (t.accepted.map (BitVec.ofNat 8)).getD 0xFF#8,
      (t.candidate.map (BitVec.ofNat 8)).getD 0xFF#8, BitVec.ofNat 8 t.missCount, if t.noteToggle then 0x01#8 else 0x00#8,
      if t.abortPending then 0x01#8 else 0x00#8, BitVec.ofNat 8 t.busyRun, BitVec.ofNat 8 t.unackedPolls,
      if t.heard then 0x01#8 else 0x00#8]
      ++ [t.missesTotal, t.malformedAnswers, t.badCheckPackets, t.windowsGranted].flatMap o16 := by
  have hcode : o8 t.state.code = [match t.state with
      | .free => 0#8 | .offline => 1#8 | .joining => 2#8 | .online => 3#8 | .silent => 4#8 | .barred => 5#8] := by
    cases t.state <;> rfl
  have haddress : o8 a.toNat = [a] := by rw [o8, BitVec.ofNat_toNat, BitVec.setWidth_eq]
  unfold Station.fields
  rw [hcode, haddress, o8?_eq, o8?_eq]
  simp only [o8, oFlag, List.flatMap_cons, List.flatMap_nil, List.append_assoc, List.cons_append, List.nil_append, List.append_nil]

section
variable {s : State} {a flag : Octet}

theorem flag?_none (h : ¬(flag = 0x00#8 ∨ flag = 0x01#8)) : flag? flag = none := by
  rw [← flag?_isSome_iff] at h
  simpa using h

theorem stationRead_bad (h : ¬((1 ≤ a.toNat ∧ a.toNat ≤ 30) ∧ (flag = 0x00#8 ∨ flag = 0x01#8))) :
    stationRead [a, flag] s = answer s .badArg := by
  unfold stationRead
  by_cases hflag : flag = 0x00#8 ∨ flag = 0x01#8
  · have hno := (isStation_false_iff a.toNat).mpr fun hin => h ⟨hin, hflag⟩
    obtain ⟨b, hb⟩ := Option.isSome_iff_exists.mp ((flag?_isSome_iff flag).mpr hflag)
    simp only [hb, hno]
    rfl
  · simp only [flag?_none hflag]

theorem stationRead_ok (h : 1 ≤ a.toNat ∧ a.toNat ≤ 30) {b : Bool} (hb : flag? flag = some b) :
    stationRead [a, flag] s = answer (if b then s.modStation a.toNat Station.zeroCounters else s) .ok ((s.station a.toNat).fields a.toNat) := by
  unfold stationRead
  simp only [hb, (isStation_true_iff _).mpr h]
  rfl

end

/-- Settles O28: the fields of the entry, and the counters by the flag. -/
theorem stationReadCopiesEntry : Obligations.StationReadCopiesEntry := by
  intro s tag a flag h t bit code fields ok
  have hfields : (s.afterTaking.station a.toNat).fields a.toNat = fields := by
    rw [afterTaking_station]
    exact stationFields_octets t a
  refine ⟨fun hno => ?_, fun hok hflag => ?_, fun hok hflag => ?_⟩
  · exact gives_unchanged (work := stationRead [a, flag]) (r := .badArg) rfl h (stationRead_bad hno)
  · rw [← hfields]
    exact gives_unchanged (work := stationRead [a, flag]) (r := .ok) rfl h (stationRead_ok (b := false) hok.1 (by rw [hflag]; rfl))
  · rw [← hfields]
    exact gives_modStation (work := stationRead [a, flag]) (r := .ok) _ _ rfl h (stationRead_ok (b := true) hok.1 (by rw [hflag]; rfl))

end Sys2Proof.Machine
end

section
/-! SUPPORT. What an answer does to a station that is not ONLINE, and what a miss does to any (R26 to R32, R40, R16, R17); O30 to
O32. -/

namespace Sys2Proof.Machine

section
variable {s : State} {o : Octet} {a : Nat}

/-! ## The commands that name an answer (log entry 7) -/

theorem inRunningCycle_iff : s.inRunningCycle = true ↔ s.pin = .high ∧ s.line.cycleOpen = true ∧ s.line.state = .running :=
  decide_eq_true_iff

theorem ringCalled_of (hc : s.poll.call = .ring a) (hr : (s.station a).state.inRing = true) : s.ringCalled = some a := by
  unfold State.ringCalled
  rw [hc]
  exact if_pos hr

theorem ringCalled_of_stale (hc : s.poll.call = .ring a) (hr : (s.station a).state.inRing = false) : s.ringCalled = none := by
  unfold State.ringCalled
  rw [hc]
  exact if_neg (Bool.eq_false_iff.mp hr)

theorem ringCalled_of_none (hc : s.poll.call = .none) : s.ringCalled = none := by
  unfold State.ringCalled
  rw [hc]

theorem exec_stationMissLimit {malformed : Bool} (ha : s.ringCalled = some a) (ho : missClass o = some malformed) :
    exec (.stationMissLimit o) s = if s.inRunningCycle && s.isOnline a && decide (s.line.settings.missLimit ≤ (s.station a).raisedMiss)
      then event (s.missOnline a malformed).countQuiet else .next s := by
  show execStationMissLimit o s = _
  unfold execStationMissLimit
  rw [ha, ho]

theorem exec_lineQuiet {malformed : Bool} (ha : s.ringCalled = some a) (ho : missClass o = some malformed) :
    exec (.lineQuiet o) s = if s.inRunningCycle && s.quietReached then event (s.ringMiss a malformed).countQuiet else .next s := by
  show execLineQuiet o s = _
  unfold execLineQuiet
  rw [ha, ho]

theorem exec_busyTimeout {code : Nat} {echo request busy : Bool} (ha : s.ringCalled = some a)
    (ho : classifyAnswer o = .valid code echo request busy) :
    exec (.busyTimeout o) s = if s.inRunningCycle && (s.octetOwed a).isSome && busy && decide (64 ≤ (s.station a).busyRun + 1)
      then event (s.answerOnline a code echo request busy).endQuiet else .next s := by
  show execBusyTimeout o s = _
  unfold execBusyTimeout
  rw [ha, ho]

theorem exec_noAck {code : Nat} {echo request busy : Bool} (ha : s.ringCalled = some a)
    (ho : classifyAnswer o = .valid code echo request busy) :
    exec (.noAck o) s = if s.inRunningCycle && (s.octetOwed a == some (!echo)) && !busy
        && decide (4 ≤ (s.station a).unackedPolls + 1)
      then event (s.answerOnline a code echo request busy).endQuiet else .next s := by
  show execNoAck o s = _
  unfold execNoAck
  rw [ha, ho]

/-- With no ring poll to answer, the rows that name a special case of one do nothing. -/
theorem exec_special_uncalled (ha : s.ringCalled = none) :
    exec (.stationMissLimit o) s = .next s ∧ exec (.lineQuiet o) s = .next s ∧ exec (.busyTimeout o) s = .next s
      ∧ exec (.noAck o) s = .next s := by
  refine ⟨?_, ?_, ?_, ?_⟩
  · show execStationMissLimit o s = _
    unfold execStationMissLimit
    rw [ha]
  · show execLineQuiet o s = _
    unfold execLineQuiet
    rw [ha]
  · show execBusyTimeout o s = _
    unfold execBusyTimeout
    rw [ha]
  · show execNoAck o s = _
    unfold execNoAck
    rw [ha]

/-- Outside a RUNNING cycle no answer arrives, under any name. -/
theorem exec_answer_outside (h : s.inRunningCycle = false) :
    exec (.answerArrival o) s = .next s ∧ exec (.stationMissLimit o) s = .next s ∧ exec (.lineQuiet o) s = .next s
      ∧ exec (.busyTimeout o) s = .next s ∧ exec (.noAck o) s = .next s := by
  refine ⟨if_neg (Bool.eq_false_iff.mp h), ?_, ?_, ?_, ?_⟩
  · show execStationMissLimit o s = _
    unfold execStationMissLimit
    split
    · simp [h]
    · rfl
  · show execLineQuiet o s = _
    unfold execLineQuiet
    split
    · simp [h]
    · rfl
  · show execBusyTimeout o s = _
    unfold execBusyTimeout
    split
    · simp [h]
    · rfl
  · show execNoAck o s = _
    unfold execNoAck
    split
    · simp [h]
    · rfl

theorem judgeAnswer_of_none (hc : s.poll.call = .none) : s.judgeAnswer o = s := by
  unfold State.judgeAnswer
  rw [hc]

theorem judgeAnswer_of_stale (hc : s.poll.call = .ring a) (hr : (s.station a).state.inRing = false) : s.judgeAnswer o = s := by
  unfold State.judgeAnswer
  rw [hc]
  exact if_neg (Bool.eq_false_iff.mp hr)

theorem not_inRing_iff (t : StationState) : t.inRing = false ↔ t = .free ∨ t = .barred := by
  cases t <;> simp [StationState.inRing]

/-! ## The quiet run (R16, R17) -/

/-- The line engine after one more miss of a ring poll. -/
def LineEngine.quieter (e : LineEngine) : LineEngine :=
  { e with
    quietCount := min 255 (e.quietCount + 1)
    quietReported := e.quietReported || (!e.quietReported && decide (e.settings.quietLimit ≤ min 255 (e.quietCount + 1))) }

/-- The report unit after one more miss of a ring poll: LINE_QUIET, when the quiet count reaches its limit. -/
def LineEngine.quietReports (e : LineEngine) (rep : ReportUnit) : ReportUnit :=
  if (!e.quietReported && decide (e.settings.quietLimit ≤ min 255 (e.quietCount + 1))) = true then
    rep.handOver (.lineQuiet (min 255 (e.quietCount + 1)) e.settings.quietLimit) else rep

theorem countQuiet_eq_with : s.countQuiet = { s with line := s.line.quieter, rep := s.line.quietReports s.rep } := countQuiet_eq s

theorem quietReached_iff : s.quietReached = true ↔ s.line.settings.quietLimit ≤ min 255 (s.line.quietCount + 1) ∧ s.line.quietReported = false := by
  simp [State.quietReached, satAdd]

theorem quieter_reached {e : LineEngine} (hl : e.settings.quietLimit ≤ min 255 (e.quietCount + 1)) (hr : e.quietReported = false) :
    e.quieter = { e with quietCount := min 255 (e.quietCount + 1), quietReported := true } := by
  unfold LineEngine.quieter
  rw [hr, decide_eq_true hl]
  rfl

theorem quieter_below {e : LineEngine} (h : min 255 (e.quietCount + 1) < e.settings.quietLimit ∨ e.quietReported = true) :
    e.quieter = { e with quietCount := min 255 (e.quietCount + 1) } := by
  have hsame : (e.quietReported || (!e.quietReported && decide (e.settings.quietLimit ≤ min 255 (e.quietCount + 1)))) = e.quietReported := by
    obtain h | h := h
    · rw [decide_eq_false (Nat.not_le_of_lt h), Bool.and_false, Bool.or_false]
    · rw [h]
      rfl
  unfold LineEngine.quieter
  rw [hsame]

/-! ## Misses (R28, R29, R31, R32) -/

theorem countQuiet_modStation {f : Station → Station} {m : Station} (h : f (s.station a) = m) : (s.modStation a f).countQuiet =
    { s.modStation a fun _ => m with line := s.line.quieter, rep := s.line.quietReports s.rep } := by
  rw [countQuiet_eq_with, State.modStation_line, State.modStation_rep, modStation_of_eq (g := fun _ => m) (h := h)]

/-- A station entry after one more miss or malformed answer (R47). -/
theorem countMiss_eq (t : Station) : t.countMiss (decide (o ≠ 0xFF#8)) =
    { t with
      missesTotal := min 65535 (t.missesTotal + 1)
      malformedAnswers := if o = 0xFF#8 then t.malformedAnswers else min 65535 (t.malformedAnswers + 1) } := by
  unfold Station.countMiss
  by_cases h : o = 0xFF#8
  · simp [h, sat16, satAdd]
  · simp [h, sat16, satAdd]

theorem ringMiss_of_waiting (h : (s.station a).state = .offline ∨ (s.station a).state = .silent) (malformed : Bool) :
    s.ringMiss a malformed = s.modStation a fun t => t.countMiss malformed := by
  unfold State.ringMiss
  obtain h | h := h
  · rw [h]
  · rw [h]

theorem ringMiss_of_joining (h : (s.station a).state = .joining) (malformed : Bool) :
    s.ringMiss a malformed = s.modStation a fun t => { t.countMiss malformed with state := .offline, candidate := none } := by
  unfold State.ringMiss
  rw [h]

theorem missOnline_below (h : (s.station a).raisedMiss < s.line.settings.missLimit) (malformed : Bool) :
    s.missOnline a malformed = s.modStation a fun t => { t.countMiss malformed with missCount := t.raisedMiss, candidate := none } :=
  if_neg (Nat.not_le_of_lt h)

/-- The entry of an ONLINE station at the miss limit (R31). -/
def Station.silenced (malformed : Bool) (t : Station) : Station :=
  { t.countMiss malformed with state := .silent, missCount := t.raisedMiss, candidate := none }

theorem missOnline_silent (h : s.line.settings.missLimit ≤ (s.station a).raisedMiss) (malformed : Bool) :
    s.missOnline a malformed = (s.modStation a (Station.silenced malformed)).leaveOnline a .silent .missLimit := by
  refine (if_pos h).trans ?_
  rw [modStation_modStation]
  rfl

/-- The departure at the miss limit, and the quiet count after it (R31, R34, R17). -/
theorem silent_outcome (hs : Shape s) (hl : LiveHandles s) (h₁ : 1 ≤ a) (h₂ : a ≤ 30) (malformed : Bool) {v : State}
    (hv : v = ((s.modStation a (Station.silenced malformed)).leaveOnline a .silent .missLimit).countQuiet) :
    Departure s v a ∧ v.line = s.line.quieter ∧ Apart s v ∧ v.rep = s.line.quietReports (s.departureReports a .silent .missLimit)
      ∧ v.station a = { (s.station a).silenced malformed with
          abortPending := ((s.station a).silenced malformed).abortPending || s.inFlightFor a } := by
  have hshape := hs.modStation a (Station.silenced malformed)
  have hn : ((s.modStation a (Station.silenced malformed)).notes.store.map (·.handle)).Nodup := by
    rw [State.modStation_notes]
    exact (List.nodup_append.mp hl.notes).1
  obtain ⟨hdeparture, hstation, -⟩ := leaveOnline_spec _ a .silent .missLimit hshape hn
  have hrep := (leaveOnline_rep _ a .silent .missLimit hshape).trans (departureReports_modStation s a _ a .silent .missLimit)
  have hline : ((s.modStation a (Station.silenced malformed)).leaveOnline a .silent .missLimit).line = s.line := by simp
  have hapart := ((Apart.modStation s a (Station.silenced malformed)).after (.leaveOnline _ a .silent .missLimit)).after (.countQuiet _)
  rw [if_pos ⟨h₁, h₂⟩, inFlightFor_modStation, State.station_modStation_self s a _ h₁ (hs.stations ▸ h₂)] at hstation
  generalize (s.modStation a (Station.silenced malformed)).leaveOnline a .silent .missLimit = w at hdeparture hstation hrep hline hapart hv
  have hcounted : v = { w with line := s.line.quieter, rep := s.line.quietReports (s.departureReports a .silent .missLimit) } := by
    rw [hv, countQuiet_eq_with, hline, hrep]
  rw [← hv] at hapart
  subst hcounted
  exact ⟨hdeparture.of_modStation.with_line_rep, rfl, hapart, rfl, (station_of_poll rfl a).trans hstation⟩

end

/-- Settles O30: the answers to a probe, by the entry and the class. -/
theorem probeAnswersHeard : Obligations.ProbeAnswersHeard := by
  intro s octet a hpin hopen hrun hcall _ _ line
  have hexec := exec_answerArrival_running (o := octet) hpin hopen hrun
  have hjudge : s.judgeAnswer octet = s.probeAnswer a (classifyAnswer octet) := by
    unfold State.judgeAnswer
    rw [hcall]
  refine ⟨fun hst => ?_, fun hst ho => ?_, fun hst ho hheard => ?_, fun hst ho hheard => ?_⟩
  · exact gives_of_event _ _ hexec (hjudge.trans (if_neg hst))
  all_goals
    refine gives_of_event _ _ hexec (hjudge.trans ((if_pos hst).trans ?_))
  · unfold classifyAnswer
    by_cases hmiss : octet = idleOctet
    · rw [if_pos hmiss]
    · rw [if_neg hmiss, if_pos ho]
  · rw [classifyAnswer_valid ho]
    simp only [hheard, if_true]
    rfl
  · rw [classifyAnswer_valid ho]
    simp only [hheard, Bool.false_eq_true, if_false]
    show ((s.modStation a _).report _).endQuiet = _
    unfold State.endQuiet State.report
    rw [State.modStation_line, State.modStation_rep]

/-- Settles O31: a miss, by the station's state. -/
theorem missedAnswersCount : Obligations.MissedAnswersCount := by
  intro s octet a hpin hopen hrun hcall h₁ h₂ ho t count quiet line rep missed
  have hexec := exec_answerArrival_running (o := octet) hpin hopen hrun
  have hmissed : t.countMiss (decide (octet ≠ 0xFF#8)) = missed := countMiss_eq t
  have hline : s.line.quieter = line := rfl
  have hrep : s.line.quietReports s.rep = rep := rfl
  have hin : t.state ≠ .free → t.state ≠ .barred → (s.station a).state.inRing = true := fun hf hb => (inRing_iff _).mpr ⟨hf, hb⟩
  refine ⟨fun hst => ?_, fun hst => ?_, fun hst => ?_, fun hst hbelow => ?_, fun hst hlimit hs hl c hc => ?_⟩
  · exact gives_of_event _ _ hexec (judgeAnswer_of_stale hcall ((not_inRing_iff _).mpr hst))
  · have hring : (s.station a).state.inRing = true := by
      obtain hst | hst := hst
      · exact hin (by simp [hst]) (by simp [hst])
      · exact hin (by simp [hst]) (by simp [hst])
    refine gives_of_event _ _ hexec ?_
    rw [judgeAnswer_miss hcall ho hring, ringMiss_of_waiting hst]
    exact countQuiet_modStation hmissed
  · refine gives_of_event _ _ hexec ?_
    rw [judgeAnswer_miss hcall ho (hin (by simp [hst]) (by simp [hst])), ringMiss_of_joining hst]
    exact countQuiet_modStation (congrArg (fun m : Station => { m with state := .offline, candidate := none }) hmissed)
  all_goals
    have hring : (s.station a).state.inRing = true := hin (by simp [hst]) (by simp [hst])
    have hon : s.isOnline a = true := isOnline_iff.mpr hst
    have hrunning : s.inRunningCycle = true := inRunningCycle_iff.mpr ⟨hpin, hopen, hrun⟩
    have hjudge := judgeAnswer_miss hcall ho hring
    rw [ringMiss_online hon] at hjudge
    have hspecial := exec_stationMissLimit (ringCalled_of hcall hring) (missClass_of_31 ho)
    rw [hrunning, hon, Bool.true_and, Bool.true_and] at hspecial
  · refine ⟨gives_of_event _ _ hexec ?_, ?_⟩
    · rw [hjudge, missOnline_below hbelow]
      exact countQuiet_modStation (congrArg (fun m : Station => { m with missCount := t.raisedMiss, candidate := none }) hmissed)
    · exact hspecial.trans (if_neg fun h => absurd (of_decide_eq_true h) (Nat.not_le_of_lt hbelow))
  · have hall : exec c s = event (s.missOnline a (decide (octet ≠ 0xFF#8))).countQuiet := by
      obtain rfl | rfl := hc
      · rw [hexec, hjudge]
      · exact hspecial.trans (if_pos (decide_eq_true hlimit))
    rw [missOnline_silent hlimit] at hall
    obtain ⟨hdeparture, hline', hapart, hrep', hstation⟩ := silent_outcome hs hl h₁ h₂ (decide (octet ≠ 0xFF#8)) rfl
    refine ⟨_, gives_of_event _ _ hall rfl, hdeparture, hline', hapart, hrep', hstation.trans ?_⟩
    exact congrArg (fun m : Station => { m with
      state := .silent, missCount := t.raisedMiss, candidate := none, abortPending := m.abortPending || s.inFlightFor a }) hmissed

/-- Settles O32: the quiet count, and LINE_QUIET at its limit. -/
theorem quietLineReported : Obligations.QuietLineReported := by
  intro s octet a hpin hopen hrun hcall ho hfree hbarred count
  have hexec := exec_answerArrival_running (o := octet) hpin hopen hrun
  have hring : (s.station a).state.inRing = true := (inRing_iff _).mpr ⟨hfree, hbarred⟩
  have hjudge := judgeAnswer_miss hcall ho hring
  have hspecial := exec_lineQuiet (ringCalled_of hcall hring) (missClass_of_31 ho)
  rw [inRunningCycle_iff.mpr ⟨hpin, hopen, hrun⟩, Bool.true_and] at hspecial
  have hline : (s.ringMiss a (decide (octet ≠ 0xFF#8))).line = s.line := by simp
  refine ⟨fun hlimit hclear => ?_, fun hbelow => ?_⟩
  · have hsame : exec (.lineQuiet octet) s = exec (.answerArrival octet) s := by
      rw [hspecial, if_pos (quietReached_iff.mpr ⟨hlimit, hclear⟩), hexec, hjudge]
    refine ⟨hsame, fun c hc => ?_⟩
    have hall : exec c s = event (s.ringMiss a (decide (octet ≠ 0xFF#8))).countQuiet := by
      obtain rfl | rfl := hc
      · rw [hexec, hjudge]
      · rw [hsame, hexec, hjudge]
    rw [countQuiet_eq_with, hline, quieter_reached hlimit hclear] at hall
    refine ⟨_, (s.ringMiss a (decide (octet ≠ 0xFF#8))).rep, gives_of_event _ _ hall rfl, rfl, if_pos ?_⟩
    rw [hclear, decide_eq_true hlimit]
    rfl
  · refine ⟨hspecial.trans (if_neg fun h => ?_), ?_⟩
    · obtain ⟨hlimit, hclear⟩ := quietReached_iff.mp h
      obtain hbelow | hset := hbelow
      · exact absurd hlimit (Nat.not_le_of_lt hbelow)
      · exact absurd (hset.symm.trans hclear) (by decide)
    · rw [hjudge, countQuiet_eq_with, hline, quieter_below hbelow] at hexec
      exact ⟨_, gives_of_event _ _ hexec rfl, rfl⟩

end Sys2Proof.Machine
end

section
/-! SUPPORT. A valid answer that makes a station JOINING or ONLINE (R28, R29, R32, R33); O29. -/

namespace Sys2Proof.Machine

section
variable {s : State} {a code : Nat}

/-! ## The parts of a valid answer -/

/-- The Window Queue after a request for a window that may have been made (R92, R94). -/
def WindowUnit.asked (w : WindowUnit) (request : Bool) (a : Nat) : WindowUnit :=
  { w with
    queue :=
      if request = true ∧ a ∉ w.queue ∧ (∀ x, w.window = some x → x.owner ≠ a) then w.queue ++ [a] else w.queue }

theorem requested_eq (h : (s.station a).state = .online) (request : Bool) :
    (if request then s.askWindow a else s) = { s with window := s.window.asked request a } := by
  unfold WindowUnit.asked
  cases request
  · simp
  · rw [if_pos rfl, askWindow_spec s a h]
    simp only [true_and]

theorem ringValid_of_waiting (h : (s.station a).state = .offline ∨ (s.station a).state = .silent) (echo request busy : Bool) :
    s.ringValid a code echo request busy = s.joinStation a code echo := by
  unfold State.ringValid
  obtain h | h := h
  · rw [h]
  · rw [h]

theorem ringValid_of_joining (h : (s.station a).state = .joining) (echo request busy : Bool) :
    s.ringValid a code echo request busy = s.becomeOnline a code request := by
  unfold State.ringValid
  rw [h]

/-- CONDITION, when the double-look accepts the code (R38). -/
def Station.conditionReports (t : Station) (a code : Nat) (now : BitVec 16) : List Report :=
  if t.candidate = some code ∧ t.accepted ≠ some code then [.condition a code t.accepted 0 now] else []

theorem doubleLook_rep (h₁ : 1 ≤ a) (h₂ : a ≤ 30) (hl : s.poll.stations.length = 30) :
    (s.doubleLook a code).rep = ((s.station a).conditionReports a code s.line.cycleCounter).foldl ReportUnit.handOver s.rep := by
  obtain ⟨-, -, -, hrep⟩ := doubleLook_spec s a code h₁ h₂ hl
  rw [hrep]
  unfold Station.conditionReports
  split <;> rfl

/-- The MUTED circuits of a station that has become ONLINE, as the report unit hears of them (R83). -/
def State.onlineReports (s : State) (a : Nat) : List Report :=
  (List.range 12).filterMap fun n => (s.circuit n).bind fun c =>
    if c.source = a ∧ c.state = .muted then some (.circuitState n a .live .muted .sourceOnline none s.line.cycleCounter) else none

theorem sourceOnline_circuit (hlen : s.circuits.length = 12) (n : Nat) : (s.sourceOnline a).circuit n = (s.circuit n).map fun c =>
    if c.source = a ∧ c.state = .muted then { c.emptied with state := .live } else c := by
  refine ((changeCircuits_spec _ _ _ s hlen).1 n).trans ?_
  refine congrArg (fun g => (s.circuit n).map g) (funext fun c => if_congr decide_eq_true_iff rfl rfl)

theorem sourceOnline_rep (hlen : s.circuits.length = 12) : (s.sourceOnline a).rep = (s.onlineReports a).foldl ReportUnit.handOver s.rep := by
  obtain ⟨-, -, hrep⟩ := changeCircuits_spec (fun c => decide (c.source = a ∧ c.state = .muted)) .live .sourceOnline s hlen
  refine hrep.trans (congrArg (fun g => ((List.range 12).filterMap g).foldl ReportUnit.handOver s.rep) (funext fun n => ?_))
  refine congrArg (Option.bind _) (funext fun c => ?_)
  by_cases h : c.source = a ∧ c.state = .muted
  · rw [if_pos (decide_eq_true h), if_pos h, h.1, h.2]
    rfl
  · rw [if_neg (fun hd => h (of_decide_eq_true hd)), if_neg h]

/-- The state of a station that has become ONLINE, before its request for a window (R33, R38). -/
def State.joined (s : State) (a code : Nat) : State :=
  (((s.modStation a fun t => { t with state := .online, missCount := 0 }).reportStation a .online .joining .answered).sourceOnline a).doubleLook a code

theorem becomeOnline_eq (request : Bool) : s.becomeOnline a code request =
    if request then (s.joined a code).askWindow a else s.joined a code := rfl

theorem joined_keeps : (s.joined a code).line = s.line ∧ (s.joined a code).notes = s.notes ∧ (s.joined a code).slots = s.slots
    ∧ (s.joined a code).lanes = s.lanes ∧ (s.joined a code).window = s.window ∧ (s.joined a code).rx = s.rx
    ∧ (s.joined a code).mailboxes = s.mailboxes ∧ (s.joined a code).free = s.free
    ∧ (s.joined a code).poll = { s.poll with stations := (s.joined a code).poll.stations } ∧ Apart s (s.joined a code) := by
  unfold State.joined
  refine ⟨by simp, by simp, by simp, by simp, by simp, by simp, by simp, by simp, ?_, ?_⟩
  · exact PollUnit.eq_with_stations (by simp) (by simp) (by simp)
  · constructor <;> simp

theorem joined_stations (hs : Shape s) (h₁ : 1 ≤ a) (h₂ : a ≤ 30) :
    (∀ b, b ≠ a → (s.joined a code).station b = s.station b)
      ∧ (s.joined a code).station a =
        { s.station a with
          state := .online, missCount := 0, candidate := some code
          accepted := if (s.station a).candidate = some code then some code else (s.station a).accepted }
      ∧ (∀ n, (s.joined a code).circuit n = (s.circuit n).map fun c =>
        if c.source = a ∧ c.state = .muted then { c.emptied with state := .live } else c)
      ∧ (s.joined a code).rep =
        (Report.stationState a .online .joining .answered s.line.cycleCounter :: s.onlineReports a
          ++ (s.station a).conditionReports a code s.line.cycleCounter).foldl ReportUnit.handOver s.rep := by
  have hself := State.station_modStation_self s a (fun t => { t with state := .online, missCount := 0 }) h₁ (hs.stations ▸ h₂)
  have hshape := hs.modStation a fun t => { t with state := .online, missCount := 0 }
  have hcircuit : ∀ n, (s.modStation a fun t => { t with state := .online, missCount := 0 }).circuit n = s.circuit n := fun n => by
    unfold State.circuit
    rw [State.modStation_circuits]
  have hne : ∀ b, b ≠ a → (s.modStation a fun t => { t with state := .online, missCount := 0 }).station b = s.station b :=
    fun b hb => State.station_modStation_ne _ _ _ _ hb
  have hline : (s.modStation a fun t => { t with state := .online, missCount := 0 }).line = s.line := by simp
  have hrep : (s.modStation a fun t => { t with state := .online, missCount := 0 }).rep = s.rep := by simp
  unfold State.joined
  generalize s.modStation a (fun t => { t with state := .online, missCount := 0 }) = x at *
  have hlive : ((x.reportStation a .online .joining .answered).sourceOnline a).poll = x.poll := by simp
  have hlen : ((x.reportStation a .online .joining .answered).sourceOnline a).poll.stations.length = 30 := by
    rw [hlive]
    exact hshape.stations
  obtain ⟨hothers, -, hstation, -⟩ := doubleLook_spec ((x.reportStation a .online .joining .answered).sourceOnline a) a code h₁ h₂ hlen
  have hentry : ∀ b, ((x.reportStation a .online .joining .answered).sourceOnline a).station b = x.station b := fun b => station_of_poll hlive b
  refine ⟨fun b hb => ?_, ?_, fun n => ?_, ?_⟩
  · rw [hothers b hb, hentry, hne b hb]
  · rw [hstation, hentry, hself]
  · have hkept : (((x.reportStation a .online .joining .answered).sourceOnline a).doubleLook a code).circuit n
        = ((x.reportStation a .online .joining .answered).sourceOnline a).circuit n := by
      unfold State.circuit
      simp
    rw [hkept, sourceOnline_circuit (s := x.reportStation a .online .joining .answered) hshape.circuits, ← hcircuit]
    rfl
  · have hnow : ((x.reportStation a .online .joining .answered).sourceOnline a).line = s.line := by simp [hline]
    have honline : (x.reportStation a .online .joining .answered).onlineReports a = s.onlineReports a := by
      unfold State.onlineReports
      simp only [← hcircuit, ← hline]
      rfl
    rw [doubleLook_rep h₁ h₂ hlen, hentry, hself, hnow, sourceOnline_rep (s := x.reportStation a .online .joining .answered) hshape.circuits,
      honline, List.foldl_append, List.foldl_cons, ← hrep, ← hline]
    rfl

end

/-- Settles O29: a valid answer to a ring poll, by the station's state, and the answers that are no events. -/
theorem validAnswersJoin : Obligations.ValidAnswersJoin := by
  refine ⟨fun s octet c hc => ⟨fun hno => ?_, fun hcall hne => ?_, fun hpin hopen hrun hcall => ?_⟩,
    fun s octet a hpin hopen hrun hcall h₁ h₂ ho hs => ?_⟩
  · have hout : s.inRunningCycle = false := Bool.eq_false_iff.mpr fun h => hno (inRunningCycle_iff.mp h)
    obtain ⟨hanswer, hmiss, hquiet, hbusy, hnoack⟩ := exec_answer_outside (o := octet) hout
    obtain rfl | rfl | rfl | rfl | rfl := hc
    exacts [hanswer, hmiss, hquiet, hbusy, hnoack]
  · obtain ⟨hmiss, hquiet, hbusy, hnoack⟩ := exec_special_uncalled (o := octet) (ringCalled_of_none hcall)
    obtain rfl | rfl | rfl | rfl | rfl := hc
    exacts [absurd rfl hne, hmiss, hquiet, hbusy, hnoack]
  · exact gives_of_event _ _ (exec_answerArrival_running hpin hopen hrun) (judgeAnswer_of_none hcall)
  · intro t code echo request line
    have hexec := exec_answerArrival_running (o := octet) hpin hopen hrun
    refine ⟨fun hst => ?_, fun hst => ?_, fun hst => ?_⟩
    · have hstale := (not_inRing_iff _).mpr hst
      obtain ⟨-, -, hbusy, hnoack⟩ := exec_special_uncalled (o := octet) (ringCalled_of_stale hcall hstale)
      exact ⟨gives_of_event _ _ hexec (judgeAnswer_of_stale hcall hstale), hbusy, hnoack⟩
    · have hring : (s.station a).state.inRing = true := by
        rw [inRing_iff]
        obtain hst | hst := hst
        · simp [show (s.station a).state = _ from hst]
        · simp [show (s.station a).state = _ from hst]
      refine gives_of_event _ _ hexec ?_
      rw [judgeAnswer_valid hcall ho hring, ringValid_of_waiting hst]
      show (s.modStation a _).endQuiet = _
      unfold State.endQuiet
      rw [State.modStation_line]
    · have hring : (s.station a).state.inRing = true := by
        rw [inRing_iff]
        simp [show (s.station a).state = _ from hst]
      obtain ⟨hothers, hstation, hcircuits, hrep⟩ := joined_stations (code := code) hs h₁ h₂
      obtain ⟨hline, hnotes, hslots, hlanes, hwindow, hrx, hmail, hfree, hpoll, hapart⟩ := joined_keeps (s := s) (a := a) (code := code)
      have honline : ((s.joined a code).station a).state = .online := by rw [hstation]
      rw [judgeAnswer_valid hcall ho hring, ringValid_of_joining hst, becomeOnline_eq, requested_eq honline] at hexec
      generalize s.joined a code = x at *
      refine ⟨_, gives_of_event _ _ hexec rfl, ?_, fun b hb => (station_of_poll rfl b).trans (hothers b hb), hpoll,
        (station_of_poll rfl a).trans hstation, fun n _ => hcircuits n, ?_, hnotes, hslots, hlanes, hrx, hmail, hfree,
        ⟨hapart.link, hapart.pin, hapart.handles, hapart.sent, hapart.choices, hapart.pending⟩, hrep⟩
      · unfold State.endQuiet
        rw [hline]
      · exact congrArg (fun w : WindowUnit => w.asked request a) hwindow

end Sys2Proof.Machine
end

section
/-! SUPPORT. A valid answer of an ONLINE station, and the note octet it judges (R30, R53 to R57); O33. -/

namespace Sys2Proof.Machine

/-! ## The finishing of a note (R58) -/

section
variable {s : State} {n : Note} {A B : List Note}

theorem finishNote_eq (s : State) (n : Note) (o : NoteOutcome) : s.finishNote n o =
    { (if n.state = .inFlight ∧ o ≠ .delivered then s.modStation n.station fun t => { t with abortPending := true } else s) with
      notes := { s.notes with store := s.notes.store.filter fun m => m.handle != n.handle }
      rep := s.rep.placed s.line.cycleCounter (n.completion o s.line.cycleCounter) } := by
  unfold State.finishNote
  by_cases h : n.state = .inFlight ∧ o ≠ .delivered
  · simp only [if_pos h, State.complete, State.now, State.modStation_notes, State.modStation_rep, State.modStation_line]
    rfl
  · simp only [if_neg h]
    rfl

/-- A note in flight that does not finish DELIVERED. -/
theorem finishNote_inFlight {o : NoteOutcome} (hstate : n.state = .inFlight) (ho : o ≠ .delivered) (hstore : s.notes.store = A ++ n :: B)
    (hone : ∀ m ∈ A ++ B, m.handle ≠ n.handle) :
    s.finishNote n o =
      { s.modStation n.station fun t => { t with abortPending := true } with
        notes := { s.notes with store := A ++ B }
        rep := s.rep.placed s.line.cycleCounter (n.completion o s.line.cycleCounter) } := by
  rw [finishNote_eq, if_pos ⟨hstate, ho⟩, hstore, filter_of_split hone]

/-- A note that finishes DELIVERED, or was not in flight. -/
theorem finishNote_quietly {o : NoteOutcome} (h : ¬(n.state = .inFlight ∧ o ≠ .delivered)) (hstore : s.notes.store = A ++ n :: B)
    (hone : ∀ m ∈ A ++ B, m.handle ≠ n.handle) :
    s.finishNote n o =
      { s with
        notes := { s.notes with store := A ++ B }
        rep := s.rep.placed s.line.cycleCounter (n.completion o s.line.cycleCounter) } := by
  rw [finishNote_eq, if_neg h, hstore, filter_of_split hone]

theorem modNote_of_split {n' : Note} (hstore : s.notes.store = A ++ n :: B) (hone : ∀ m ∈ A ++ B, m.handle ≠ n.handle) :
    s.modNote n.handle (fun _ => n') = { s with notes := { s.notes with store := A ++ n' :: B } } := by
  unfold State.modNote
  rw [hstore, map_of_split rfl hone]

theorem note?_mem {h : Nat} (hn : s.note? h = some n) : n ∈ s.notes.store ∧ n.handle = h := by
  unfold State.note? at hn
  exact ⟨List.mem_of_find?_eq_some hn, by simpa using List.find?_some hn⟩

end

/-! ## The call-out record (R52, R53) -/

section
variable {s : State} {c : CallOut} {n : Note}

theorem calledNote_of_note (hc : s.notes.callOut = some c) {i : Nat} (hnote : c.note = some (n.handle, i)) (hn : s.note? n.handle = some n)
    (hstate : n.state = .inFlight) : s.calledNote = some n := by
  unfold State.calledNote
  rw [hc]
  simp only [hnote, Option.bind_some, hn, hstate, if_true]

theorem calledNote_of_queued (hc : s.notes.callOut = some c) {h i : Nat} (hnote : c.note = some (h, i))
    (hq : ∀ n ∈ s.notes.store, n.handle = h → n.state = .queued) : s.calledNote = none := by
  unfold State.calledNote
  rw [hc]
  simp only [hnote, Option.bind_some]
  split
  next n hn =>
    obtain ⟨hmem, hh⟩ := note?_mem hn
    rw [if_neg (by simp [hq n hmem hh])]
  next => rfl

/-- An answer judges the note octet called, when the note is still in flight. -/
theorem judgeNote_of_called (hc : s.notes.callOut = some c) (hm : c.mark = .more ∨ c.mark = .endMark) (hn : s.calledNote = some n)
    (a : Nat) (echo busy : Bool) : s.judgeNote a echo busy = s.judgeOctet a c n echo busy := by
  unfold State.judgeNote
  rw [hc]
  obtain hm | hm := hm
  · simp only [hm, hn]
  · simp only [hm, hn]

theorem judgeNote_of_uncalled (hc : s.notes.callOut = some c) (hm : c.mark = .more ∨ c.mark = .endMark) (hn : s.calledNote = none)
    (a : Nat) (echo busy : Bool) : s.judgeNote a echo busy = s := by
  unfold State.judgeNote
  rw [hc]
  obtain hm | hm := hm
  · simp only [hm, hn]
  · simp only [hm, hn]

theorem judgeNote_of_none (hc : s.notes.callOut = some c) (hm : c.mark = .none) (a : Nat) (echo busy : Bool) :
    s.judgeNote a echo busy = s.modStation a fun t => { t with noteToggle := echo } := by
  unfold State.judgeNote
  rw [hc]
  simp only [hm]

theorem judgeNote_of_abort (hc : s.notes.callOut = some c) (hm : c.mark = .abort) (a : Nat) (echo busy : Bool) :
    s.judgeNote a echo busy = s.modStation a fun t => { t with noteToggle := echo, abortPending := false } := by
  unfold State.judgeNote
  rw [hc]
  simp only [hm]

end

/-! ## What the judging of a note gives -/

/-- What a judged answer leaves of `y`: the notes, the report unit and the station's own entry. -/
structure Judged (y x : State) (a : Nat) (notes : NoteUnit) (rep : ReportUnit) (entry : Station) : Prop where
  others : ∀ b, b ≠ a → x.station b = y.station b
  notes : x.notes = notes
  rep : x.rep = rep
  entry : x.station a = entry

section
variable {y : State} {a : Nat} {A B : List Note} {n : Note} {c : CallOut} {echo busy : Bool} (hlen : y.poll.stations.length = 30) (h₁ : 1 ≤ a) (h₂ : a ≤ 30)
include hlen h₁ h₂

theorem judged_modStation (f : Station → Station) : Judged y (y.modStation a f) a y.notes y.rep (f (y.station a)) where
  others := fun _ hb => State.station_modStation_ne _ _ _ _ hb
  notes := State.modStation_notes ..
  rep := State.modStation_rep ..
  entry := State.station_modStation_self _ _ _ h₁ (hlen ▸ h₂)

/-- The octet is not taken: the station is busy (R54). -/
theorem judged_busy (hbusy : busy = true) (hlimit : (y.station a).busyRun + 1 < 64) :
    Judged y (y.judgeOctet a c n echo busy) a y.notes y.rep { y.station a with busyRun := (y.station a).busyRun + 1 } := by
  have hwork : y.judgeOctet a c n echo busy = y.modStation a fun t => { t with busyRun := t.busyRun + 1 } := by
    subst hbusy
    exact if_neg (Nat.not_le_of_lt hlimit)
  exact hwork ▸ judged_modStation hlen h₁ h₂ _

/-- The octet is not taken: the echo is wrong (R55). -/
theorem judged_unacked (hbusy : busy = false) (hecho : echo ≠ c.toggle) (hlimit : (y.station a).unackedPolls + 1 < 4) :
    Judged y (y.judgeOctet a c n echo busy) a y.notes y.rep
      { y.station a with unackedPolls := (y.station a).unackedPolls + 1, busyRun := 0 } := by
  have hwork : y.judgeOctet a c n echo busy = y.modStation a fun t => { t with unackedPolls := t.unackedPolls + 1, busyRun := 0 } := by
    subst hbusy
    exact (if_neg hecho).trans (if_neg (Nat.not_le_of_lt hlimit))
  exact hwork ▸ judged_modStation hlen h₁ h₂ _

variable (hstore : y.notes.store = A ++ n :: B) (hone : ∀ m ∈ A ++ B, m.handle ≠ n.handle) (hstate : n.state = .inFlight)
  (hstation : n.station = a)
include hstore hone hstate hstation

/-- The note fails, after a change of the entry. -/
theorem judged_failed {o : NoteOutcome} (ho : o ≠ .delivered) (f : Station → Station) :
    Judged y ((y.modStation a f).finishNote n o) a { y.notes with store := A ++ B }
      (y.rep.placed y.line.cycleCounter (n.completion o y.line.cycleCounter)) { f (y.station a) with abortPending := true } := by
  have hstore' : (y.modStation a f).notes.store = A ++ n :: B := by rw [State.modStation_notes, hstore]
  have hnotes : (y.modStation a f).notes = y.notes := by simp
  have hrep : (y.modStation a f).rep = y.rep := by simp
  have hline : (y.modStation a f).line = y.line := by simp
  rw [finishNote_inFlight hstate ho hstore' hone, hstation, modStation_modStation, hnotes, hrep, hline]
  refine ⟨fun b hb => ?_, rfl, rfl, ?_⟩
  · exact (station_of_poll rfl b).trans (State.station_modStation_ne _ _ _ _ hb)
  · exact (station_of_poll rfl a).trans (State.station_modStation_self _ _ _ h₁ (hlen ▸ h₂))

end

section
variable {y : State} {a : Nat} {A B : List Note} {n : Note} {c : CallOut} {echo busy : Bool} (hlen : y.poll.stations.length = 30)
  (h₁ : 1 ≤ a) (h₂ : a ≤ 30) (hstore : y.notes.store = A ++ n :: B) (hone : ∀ m ∈ A ++ B, m.handle ≠ n.handle)
include hlen h₁ h₂ hstore hone

/-- The octet is acknowledged and more follow (R53). -/
theorem judged_more (hbusy : busy = false) (hecho : echo = c.toggle) (hm : c.mark = .more) :
    Judged y (y.judgeOctet a c n echo busy) a { y.notes with store := A ++ { n with nextIndex := n.nextIndex + 1 } :: B } y.rep
      { y.station a with noteToggle := c.toggle, busyRun := 0, unackedPolls := 0 } := by
  have hwork : y.judgeOctet a c n echo busy
      = (y.modStation a fun t => { t with noteToggle := c.toggle, busyRun := 0, unackedPolls := 0 }).modNote n.handle
        fun _ => { n with nextIndex := n.nextIndex + 1 } := by
    subst hbusy
    exact (if_pos hecho).trans (if_neg (by simp [hm]))
  have hstation := judged_modStation hlen h₁ h₂ fun t => { t with noteToggle := c.toggle, busyRun := 0, unackedPolls := 0 }
  rw [hwork, modNote_of_split (hstation.notes ▸ hstore) hone, hstation.notes]
  exact ⟨fun b hb => (station_of_poll rfl b).trans (hstation.others b hb), rfl, hstation.rep, (station_of_poll rfl a).trans hstation.entry⟩

/-- The last octet is acknowledged (R53, R56). -/
theorem judged_delivered (hbusy : busy = false) (hecho : echo = c.toggle) (hm : c.mark = .endMark) :
    Judged y (y.judgeOctet a c n echo busy) a { y.notes with store := A ++ B }
      (y.rep.placed y.line.cycleCounter (({ n with nextIndex := n.nextIndex + 1 } : Note).completion .delivered y.line.cycleCounter))
      { y.station a with noteToggle := c.toggle, busyRun := 0, unackedPolls := 0 } := by
  have hwork : y.judgeOctet a c n echo busy
      = ((y.modStation a fun t => { t with noteToggle := c.toggle, busyRun := 0, unackedPolls := 0 }).modNote n.handle
        fun _ => { n with nextIndex := n.nextIndex + 1 }).finishNote { n with nextIndex := n.nextIndex + 1 } .delivered := by
    subst hbusy
    exact (if_pos hecho).trans (if_pos hm)
  have hstation := judged_modStation hlen h₁ h₂ fun t => { t with noteToggle := c.toggle, busyRun := 0, unackedPolls := 0 }
  have hline : (y.modStation a fun t => { t with noteToggle := c.toggle, busyRun := 0, unackedPolls := 0 }).line = y.line := by simp
  rw [hwork, modNote_of_split (hstation.notes ▸ hstore) hone, hstation.notes]
  rw [finishNote_quietly (A := A) (B := B) (n := { n with nextIndex := n.nextIndex + 1 }) (fun h => h.2 rfl) rfl hone]
  refine ⟨fun b hb => (station_of_poll rfl b).trans (hstation.others b hb), rfl, ?_, (station_of_poll rfl a).trans hstation.entry⟩
  show ReportUnit.placed _ (State.rep _) _ = _
  rw [hstation.rep, hline]

variable (hstate : n.state = .inFlight) (hstation : n.station = a)
include hstate hstation

/-- The 64th busy answer (R54). -/
theorem judged_busyTimeout (hbusy : busy = true) (hlimit : 64 ≤ (y.station a).busyRun + 1) :
    Judged y (y.judgeOctet a c n echo busy) a { y.notes with store := A ++ B }
      (y.rep.placed y.line.cycleCounter (n.completion .busyTimeout y.line.cycleCounter))
      { y.station a with busyRun := (y.station a).busyRun + 1, abortPending := true } := by
  have hwork : y.judgeOctet a c n echo busy = (y.modStation a fun t => { t with busyRun := t.busyRun + 1 }).finishNote n .busyTimeout := by
    subst hbusy
    exact if_pos hlimit
  exact hwork ▸ judged_failed hlen h₁ h₂ hstore hone hstate hstation (by decide) _

/-- The 4th wrong echo (R55). -/
theorem judged_noAck (hbusy : busy = false) (hecho : echo ≠ c.toggle) (hlimit : 4 ≤ (y.station a).unackedPolls + 1) :
    Judged y (y.judgeOctet a c n echo busy) a { y.notes with store := A ++ B }
      (y.rep.placed y.line.cycleCounter (n.completion .noAck y.line.cycleCounter))
      { y.station a with unackedPolls := (y.station a).unackedPolls + 1, busyRun := 0, abortPending := true } := by
  have hwork : y.judgeOctet a c n echo busy
      = (y.modStation a fun t => { t with unackedPolls := t.unackedPolls + 1, busyRun := 0 }).finishNote n .noAck := by
    subst hbusy
    exact (if_neg hecho).trans (if_pos hlimit)
  exact hwork ▸ judged_failed hlen h₁ h₂ hstore hone hstate hstation (by decide) _

end

/-! ## The answer as a whole (R30) -/

/-- What every valid answer of an ONLINE station keeps, its notes, its entry and the report unit apart. -/
def AnswerKeeps (s : State) (a : Nat) (request : Bool) (u : State) : Prop :=
  u.line = { s.line with quietCount := 0, quietReported := false }
    ∧ u.poll = { s.poll with stations := u.poll.stations } ∧ (∀ b, b ≠ a → u.station b = s.station b)
    ∧ u.window = s.window.asked request a ∧ u.slots = s.slots ∧ u.circuits = s.circuits ∧ u.lanes = s.lanes ∧ u.rx = s.rx
    ∧ u.mailboxes = s.mailboxes ∧ u.free = s.free ∧ Apart s u

/-- The state in which the note octet is judged: miss count 0 and the double-look (R30, R38). -/
def State.looked (s : State) (a code : Nat) : State := (s.modStation a fun t => { t with missCount := 0 }).doubleLook a code

section
variable {s : State} {a code : Nat}

theorem answerOnline_eq (echo request busy : Bool) : s.answerOnline a code echo request busy =
    if request then ((s.looked a code).judgeNote a echo busy).askWindow a else (s.looked a code).judgeNote a echo busy := rfl

theorem looked_facts (hs : Shape s) (h₁ : 1 ≤ a) (h₂ : a ≤ 30) :
    (s.looked a code).poll.stations.length = 30 ∧ (s.looked a code).line = s.line ∧ (s.looked a code).notes = s.notes
      ∧ (∀ b, b ≠ a → (s.looked a code).station b = s.station b)
      ∧ (s.looked a code).station a =
        { s.station a with
          missCount := 0, candidate := some code
          accepted := if (s.station a).candidate = some code then some code else (s.station a).accepted }
      ∧ (s.looked a code).rep =
        if (s.station a).candidate = some code ∧ (s.station a).accepted ≠ some code then
          s.rep.handOver (.condition a code (s.station a).accepted 0 s.line.cycleCounter) else s.rep := by
  have hself := State.station_modStation_self s a (fun t => { t with missCount := 0 }) h₁ (hs.stations ▸ h₂)
  have hne : ∀ b, b ≠ a → (s.modStation a fun t => { t with missCount := 0 }).station b = s.station b :=
    fun b hb => State.station_modStation_ne _ _ _ _ hb
  have hline : (s.modStation a fun t => { t with missCount := 0 }).line = s.line := by simp
  have hrep : (s.modStation a fun t => { t with missCount := 0 }).rep = s.rep := by simp
  have hnotes : (s.modStation a fun t => { t with missCount := 0 }).notes = s.notes := by simp
  have hshape := hs.modStation a fun t => { t with missCount := 0 }
  unfold State.looked
  generalize s.modStation a (fun t => { t with missCount := 0 }) = x at *
  obtain ⟨hothers, hlen, hstation, hrep'⟩ := doubleLook_spec x a code h₁ h₂ hshape.stations
  refine ⟨hlen, by simpa using hline, by simpa using hnotes, fun b hb => (hothers b hb).trans (hne b hb), ?_, ?_⟩
  · rw [hstation, hself]
  · rw [hrep', hself, hrep, State.now, hline]

/-- What judging a note keeps. -/
theorem judgedAnswer_keeps (s : State) (a code : Nat) (echo busy : Bool) {x : State} (hx : x = (s.looked a code).judgeNote a echo busy) :
    x.line = s.line ∧ x.poll = { s.poll with stations := x.poll.stations } ∧ x.window = s.window ∧ x.slots = s.slots
      ∧ x.circuits = s.circuits ∧ x.lanes = s.lanes ∧ x.rx = s.rx ∧ x.mailboxes = s.mailboxes ∧ x.free = s.free ∧ Apart s x := by
  subst hx
  unfold State.looked
  refine ⟨by simp, PollUnit.eq_with_stations (by simp) (by simp) (by simp), by simp, by simp, by simp, by simp, by simp, by simp,
    by simp, ?_⟩
  constructor <;> simp

/-- A valid answer of an ONLINE station, from what the judging of its note gives. -/
theorem answer_outcome {k : Instr} {echo request busy : Bool} (hs : Shape s) (h₁ : 1 ≤ a) (h₂ : a ≤ 30)
    (hk : exec k s = event (s.answerOnline a code echo request busy).endQuiet) {notes : NoteUnit} {rep : ReportUnit} {entry : Station}
    (hj : Judged (s.looked a code) ((s.looked a code).judgeNote a echo busy) a notes rep entry) (hon : entry.state = .online) :
    ∃ u : State, Gives k s u ∧ AnswerKeeps s a request u ∧ u.notes = notes ∧ u.rep = rep ∧ u.station a = entry := by
  obtain ⟨-, -, -, hothers, -, -⟩ := looked_facts (code := code) hs h₁ h₂
  obtain ⟨hline, hpoll, hwindow, hslots, hcircuits, hlanes, hrx, hmail, hfree, hapart⟩ := judgedAnswer_keeps s a code echo busy rfl
  obtain ⟨hothers', hnotes, hrep, hentry⟩ := hj
  rw [answerOnline_eq, requested_eq (hentry ▸ hon)] at hk
  generalize (s.looked a code).judgeNote a echo busy = x at *
  refine ⟨_, gives_of_event _ _ hk rfl, ⟨?_, hpoll, fun b hb => (station_of_poll rfl b).trans ((hothers' b hb).trans (hothers b hb)),
    congrArg (fun w : WindowUnit => w.asked request a) hwindow, hslots, hcircuits, hlanes, hrx, hmail, hfree,
    ⟨hapart.link, hapart.pin, hapart.handles, hapart.sent, hapart.choices, hapart.pending⟩⟩, hnotes, hrep,
    (station_of_poll rfl a).trans hentry⟩
  unfold State.endQuiet
  rw [hline]

end

/-! ## The rows that name a special answer (log entry 7) -/

section
variable {s : State} {a : Nat} {c : CallOut} {n : Note}

theorem octetOwed_of (hc : s.notes.callOut = some c) (hm : c.mark = .more ∨ c.mark = .endMark) (hn : s.calledNote = some n)
    (hon : s.isOnline a = true) : s.octetOwed a = some c.toggle := by
  unfold State.octetOwed
  rw [hc, hn]
  obtain hm | hm := hm
  · simp [hm, hon]
  · simp [hm, hon]

end

/-- Settles O33: a valid answer of an ONLINE station, by the call-out record and the answer's bits. -/
theorem onlineAnswersJudgeNotes : Obligations.OnlineAnswersJudgeNotes := by
  intro s octet a hpin hopen hrun hcall h₁ h₂ ho hst hs t code echo request busy accepted base rep common finished placed
  have hring : (s.station a).state.inRing = true := by
    rw [inRing_iff, hst]
    decide
  have hon : s.isOnline a = true := isOnline_iff.mpr hst
  have hvalid := classifyAnswer_valid ho
  have hringCalled := ringCalled_of hcall hring
  have hrunning : s.inRunningCycle = true := inRunningCycle_iff.mpr ⟨hpin, hopen, hrun⟩
  have hexec : exec (.answerArrival octet) s = event (s.answerOnline a code echo request busy).endQuiet := by
    rw [exec_answerArrival_running hpin hopen hrun, judgeAnswer_valid hcall ho hring, ringValid_online hon]
  obtain ⟨hlen, hline, hnotes, -, hentry, hrep⟩ := looked_facts (code := code) hs h₁ h₂
  have hbase : base.state = .online := hst
  refine ⟨fun c hc hm => ?_, fun c hc hm => ?_, fun c h i hc hm hnote hq => ?_, fun c i A n B hc hm hnote hstore hstate hstation hone => ?_⟩
  · have hj := judged_modStation hlen h₁ h₂ fun t => { t with noteToggle := echo }
    rw [← judgeNote_of_none (s := s.looked a code) (hnotes ▸ hc) hm a echo busy, hnotes, hrep, hentry] at hj
    exact answer_outcome hs h₁ h₂ hexec hj hbase
  · have hj := judged_modStation hlen h₁ h₂ fun t => { t with noteToggle := echo, abortPending := false }
    rw [← judgeNote_of_abort (s := s.looked a code) (hnotes ▸ hc) hm a echo busy, hnotes, hrep, hentry] at hj
    exact answer_outcome hs h₁ h₂ hexec hj hbase
  · have hj : Judged (s.looked a code) (s.looked a code) a (s.looked a code).notes (s.looked a code).rep ((s.looked a code).station a) :=
      ⟨fun _ _ => rfl, rfl, rfl, rfl⟩
    have hnone := calledNote_of_queued (s := s.looked a code) (hnotes ▸ hc) hnote (hnotes ▸ hq)
    have hsame := judgeNote_of_uncalled (s := s.looked a code) (hnotes ▸ hc) hm hnone a echo busy
    rw [hnotes, hrep, hentry] at hj
    exact answer_outcome hs h₁ h₂ hexec (hsame.symm ▸ hj) hbase
  have hfound : s.note? n.handle = some n := note?_of_split hstore hone
  have hcalled : s.calledNote = some n := calledNote_of_note hc hnote hfound hstate
  have howed : s.octetOwed a = some c.toggle := octetOwed_of hc hm hcalled hon
  have hstore' : (s.looked a code).notes.store = A ++ n :: B := hnotes ▸ hstore
  have hcalled' : (s.looked a code).calledNote = some n :=
    calledNote_of_note (hnotes ▸ hc) hnote (note?_of_split hstore' hone) hstate
  have hjudge := judgeNote_of_called (hnotes ▸ hc) hm hcalled' a echo busy
  have hbusyRun : ((s.looked a code).station a).busyRun = t.busyRun := by rw [hentry]
  have hunacked : ((s.looked a code).station a).unackedPolls = t.unackedPolls := by rw [hentry]
  have hbusyTimeout := exec_busyTimeout hringCalled hvalid
  have hnoAck := exec_noAck hringCalled hvalid
  rw [hrunning, howed] at hbusyTimeout hnoAck
  refine ⟨fun hbusy hlimit => ⟨?_, ?_⟩, fun hbusy hlimit k hk => ?_, fun hbusy hecho hlimit => ⟨?_, ?_⟩,
    fun hbusy hecho hlimit k hk => ?_, fun hbusy hecho hmore => ?_, fun hbusy hecho hend => ?_⟩
  · exact hbusyTimeout.trans (if_neg fun h => absurd (of_decide_eq_true (Bool.and_eq_true_iff.mp h).2) (Nat.not_le_of_lt hlimit))
  · have hj := judged_busy (c := c) (n := n) (echo := echo) hlen h₁ h₂ hbusy (hbusyRun ▸ hlimit)
    rw [← hjudge, hnotes, hrep, hentry] at hj
    exact answer_outcome hs h₁ h₂ hexec hj hbase
  · have hall : exec k s = event (s.answerOnline a code echo request busy).endQuiet := by
      obtain rfl | rfl := hk
      · exact hexec
      · refine hbusyTimeout.trans (if_pos ?_)
        rw [show octet.getLsbD 0 = true from hbusy]
        exact decide_eq_true hlimit
    have hj := judged_busyTimeout (c := c) (echo := echo) hlen h₁ h₂ hstore' hone hstate hstation hbusy (hbusyRun ▸ hlimit)
    rw [← hjudge, hnotes, hrep, hentry, hline] at hj
    exact answer_outcome hs h₁ h₂ hall hj hbase
  · exact hnoAck.trans (if_neg fun h => absurd (of_decide_eq_true (Bool.and_eq_true_iff.mp h).2) (Nat.not_le_of_lt hlimit))
  · have hj := judged_unacked (c := c) (n := n) hlen h₁ h₂ hbusy hecho (hunacked ▸ hlimit)
    rw [← hjudge, hnotes, hrep, hentry] at hj
    exact answer_outcome hs h₁ h₂ hexec hj hbase
  · have hall : exec k s = event (s.answerOnline a code echo request busy).endQuiet := by
      obtain rfl | rfl := hk
      · exact hexec
      · have hwrong : c.toggle = !echo := Bool.eq_not_of_ne (Ne.symm hecho)
        refine hnoAck.trans (if_pos ?_)
        rw [show octet.getLsbD 0 = false from hbusy, hwrong, decide_eq_true (show 4 ≤ (s.station a).unackedPolls + 1 from hlimit)]
        simp [echo]
    have hj := judged_noAck (c := c) hlen h₁ h₂ hstore' hone hstate hstation hbusy hecho (hunacked ▸ hlimit)
    rw [← hjudge, hnotes, hrep, hentry, hline] at hj
    exact answer_outcome hs h₁ h₂ hall hj hbase
  · have hj := judged_more (c := c) hlen h₁ h₂ hstore' hone hbusy hecho hmore
    rw [← hjudge, hnotes, hrep, hentry] at hj
    exact answer_outcome hs h₁ h₂ hexec hj hbase
  · have hj := judged_delivered (c := c) hlen h₁ h₂ hstore' hone hbusy hecho hend
    rw [← hjudge, hnotes, hrep, hentry, hline] at hj
    exact answer_outcome hs h₁ h₂ hexec hj hbase

end Sys2Proof.Machine
end

section
/-! SUPPORT. NOTE.SEND and NOTE.CANCEL (R50, R51, R57 to R59); O34, O35. -/

namespace Sys2Proof.Machine

/-! ## NOTE.SEND -/

section
variable {s : State} {a : Octet} {octets : List Octet}

theorem noteSend_bad (h : ¬((1 ≤ a.toNat ∧ a.toNat ≤ 30) ∧ octets ≠ [])) : noteSend (a :: octets) s = answer s .badArg := by
  refine if_pos ?_
  rw [isStation_false_iff]
  by_cases hin : 1 ≤ a.toNat ∧ a.toNat ≤ 30
  · exact .inr (.inl (by_contra fun hne => h ⟨hin, hne⟩))
  · exact .inl hin

/-- NOTE.SEND once its arguments have passed: the station's state, then the limits, in the order of R51. -/
theorem noteSend_checked (hlen : octets.length ≤ 16) (h : (1 ≤ a.toNat ∧ a.toNat ≤ 30) ∧ octets ≠ []) :
    noteSend (a :: octets) s = if (s.station a.toNat).state = .free ∨ (s.station a.toNat).state = .barred then answer s .badState
      else match s.noteLimit a.toNat with
      | some limit => answer s .full [limit.code]
      | none => answer (s.acceptNote a.toNat octets) .ok (o16 s.nextNote) := by
  refine if_neg ?_
  rw [isStation_false_iff]
  rintro (hout | hnil | hlong)
  · exact hout h.1
  · exact h.2 hnil
  · exact absurd hlen (Nat.not_le_of_lt hlong)

section
variable (hlen : octets.length ≤ 16) (h : (1 ≤ a.toNat ∧ a.toNat ≤ 30) ∧ octets ≠ [])
include hlen h

theorem noteSend_badState (hst : (s.station a.toNat).state = .free ∨ (s.station a.toNat).state = .barred) :
    noteSend (a :: octets) s = answer s .badState := (noteSend_checked hlen h).trans (if_pos hst)

variable (hst : ¬((s.station a.toNat).state = .free ∨ (s.station a.toNat).state = .barred))
include hst

theorem noteSend_full {limit : FullLimit} (hl : s.noteLimit a.toNat = some limit) :
    noteSend (a :: octets) s = answer s .full [limit.code] := by
  rw [noteSend_checked hlen h, if_neg hst, hl]

theorem noteSend_taken (hl : s.noteLimit a.toNat = none) :
    noteSend (a :: octets) s = answer (s.acceptNote a.toNat octets) .ok (o16 s.nextNote) := by
  rw [noteSend_checked hlen h, if_neg hst, hl]

end

/-- The limits of R51, the notes of the station counted. -/
theorem noteLimit_eq (s : State) (b : Nat) : s.noteLimit b =
    if 32 ≤ s.notes.store.length then some .store
    else if 4 ≤ s.notes.store.countP (fun n => decide (n.station = b)) then some .station
    else if 96 ≤ s.placesHeld then some .completions
    else none := by
  rw [List.countP_eq_length_filter]
  rfl

theorem nextNote_fresh (h : s.placesHeld < 96) : s.nextNote ∉ s.liveNotes :=
  nextHandle_fresh _ _ (Nat.lt_of_le_of_lt (liveNotes_length_le s) (h.trans (by decide)))

end

/-- Settles O34: the answers of NOTE.SEND in the order of its checks. -/
theorem noteSendQueuesNote : Obligations.NoteSendQueuesNote := by
  intro s tag a octets hlen h c ok stateOk own
  have hlimit : s.afterTaking.noteLimit a.toNat = if 32 ≤ s.notes.store.length then some .store else if 4 ≤ own then some .station
    else if 96 ≤ s.placesHeld then some .completions else none := noteLimit_eq s.afterTaking a.toNat
  have hstate : stateOk → ¬((s.afterTaking.station a.toNat).state = .free ∨ (s.afterTaking.station a.toNat).state = .barred) := by
    rw [afterTaking_station]
    exact not_or.mpr
  refine ⟨fun hno => ?_, fun hok hst => ?_, fun hok hst hstore => ?_, fun hok hst hstore hown => ?_,
    fun hok hst hstore hown hplaces => ?_, fun hok hst hstore hown hplaces => ?_⟩
  · exact gives_unchanged (work := noteSend (a :: octets)) (r := .badArg) rfl h (noteSend_bad hno)
  · refine gives_unchanged (work := noteSend (a :: octets)) (r := .badState) rfl h (noteSend_badState hlen hok ?_)
    rw [afterTaking_station]
    exact or_iff_not_and_not.mpr hst
  · rw [if_pos hstore] at hlimit
    exact gives_unchanged (work := noteSend (a :: octets)) (r := .full) rfl h (noteSend_full hlen hok (hstate hst) hlimit)
  all_goals
    rw [if_neg (Nat.not_le_of_lt hstore)] at hlimit
  · rw [if_pos hown] at hlimit
    exact gives_unchanged (work := noteSend (a :: octets)) (r := .full) rfl h (noteSend_full hlen hok (hstate hst) hlimit)
  all_goals
    rw [if_neg (Nat.not_le_of_lt hown)] at hlimit
  · rw [if_pos hplaces] at hlimit
    exact gives_unchanged (work := noteSend (a :: octets)) (r := .full) rfl h (noteSend_full hlen hok (hstate hst) hlimit)
  · rw [if_neg (Nat.not_le_of_lt hplaces)] at hlimit
    refine ⟨s.nextNote, searchHandle_range _ _ _, nextNote_fresh hplaces, nextHandle_first s.liveNotes s.notes.lastHandle, ?_⟩
    exact gives_changed (work := noteSend (a :: octets)) (r := .ok) rfl h (noteSend_taken hlen hok (hstate hst) hlimit) rfl rfl

/-! ## NOTE.CANCEL -/

section
variable {s : State} {hi lo : Octet}

theorem noteCancel_held {n : Note} (hn : s.note? (nat16 hi lo) = some n) :
    noteCancel [hi, lo] s = answer (s.finishNote n .cancelled) .ok (o8 n.state.code ++ o8 n.nextIndex) := by
  unfold noteCancel
  simp only [hn]

theorem noteCancel_late {d : NoteDone} (hn : s.note? (nat16 hi lo) = none) (hd : s.noteEntry (nat16 hi lo) = some d) :
    noteCancel [hi, lo] s = answer s .late (o8 d.outcome.code) := by
  unfold noteCancel
  simp only [hn, hd]

theorem noteCancel_unknown (hn : s.note? (nat16 hi lo) = none) (hd : s.noteEntry (nat16 hi lo) = none) :
    noteCancel [hi, lo] s = answer s .unknown := by
  unfold noteCancel
  simp only [hn, hd]

theorem note?_none {h : Nat} (hno : ∀ m ∈ s.notes.store, m.handle ≠ h) : s.note? h = none := by
  unfold State.note?
  rw [List.find?_eq_none]
  simpa using hno

/-- No completion of the note waits. -/
theorem noteEntry_none {h : Nat} (hno : ∀ x, .note x ∈ s.rep.entries → x.handle ≠ h) : s.noteEntry h = none := by
  unfold State.noteEntry
  rw [List.findSome?_eq_none_iff]
  intro e he
  cases e with
  | note d => exact if_neg (hno d he)
  | packet p => rfl

theorem noteEntry_of_split {A B : List Completion} {d : NoteDone} (he : s.rep.entries = A ++ .note d :: B)
    (hno : ∀ x, .note x ∈ A → x.handle ≠ d.handle) : s.noteEntry d.handle = some d := by
  have hbefore := noteEntry_none (s := { s with rep := { s.rep with entries := A } }) hno
  unfold State.noteEntry at hbefore ⊢
  rw [he, List.findSome?_append, hbefore, List.findSome?_cons]
  simp

/-- A note cancelled by a request. -/
theorem finishNote_cancelled_withLink (s : State) (n : Note) : { s.afterTaking.finishNote n .cancelled with link := s.link } =
    { (if n.state = .inFlight then s.modStation n.station fun t => { t with abortPending := true } else s) with
      notes := { s.notes with store := s.notes.store.filter fun m => m.handle != n.handle }
      rep := s.rep.placed s.line.cycleCounter (n.completion .cancelled s.line.cycleCounter) } := by
  rw [finishNote_eq]
  by_cases h : n.state = .inFlight
  · rw [if_pos ⟨h, by decide⟩, if_pos h]
    have hlink := modStation_withLink s.afterTaking s.link n.station fun t => { t with abortPending := true }
    exact congrArg (fun x : State =>
      { x with
        notes := { s.notes with store := s.notes.store.filter fun m => m.handle != n.handle }
        rep := s.rep.placed s.line.cycleCounter (n.completion .cancelled s.line.cycleCounter) }) hlink
  · rw [if_neg fun hboth => h hboth.1, if_neg h]
    rfl

end

/-- Settles O35: the three answers of NOTE.CANCEL. -/
theorem noteCancelFinishesNote : Obligations.NoteCancelFinishesNote := by
  intro s tag hi lo h handle c
  have hhandle : nat16 hi lo = handle := rfl
  refine ⟨fun A n B hstore hn hone => ?_, fun A d B hno hentries hd hbefore => ?_, fun hno hnone => ?_⟩
  · have hone' : ∀ m ∈ A ++ B, m.handle ≠ n.handle := fun m hm => hn ▸ hone m hm
    have hfound : s.afterTaking.note? (nat16 hi lo) = some n := by
      rw [hhandle, ← hn]
      exact note?_of_split hstore hone'
    have hstate := finishNote_cancelled_withLink s n
    rw [hstore, filter_of_split hone'] at hstate
    have hcode : BitVec.ofNat 8 n.state.code = if n.state = .queued then 0x00#8 else 0x01#8 := by
      cases n.state <;> rfl
    rw [← hcode]
    have hcompletion : n.completion .cancelled s.line.cycleCounter = .note
        { handle := handle, station := n.station, outcome := .cancelled, length := n.octets.length
          acknowledged := n.nextIndex, cycle := s.line.cycleCounter } := by
      rw [← hn]
      rfl
    rw [hcompletion] at hstate
    exact gives_changed (work := noteCancel [hi, lo]) (r := .ok) rfl h (noteCancel_held hfound)
      (by simp) hstate
  · have hwaits : s.afterTaking.noteEntry (nat16 hi lo) = some d := by
      rw [hhandle, ← hd]
      exact noteEntry_of_split hentries fun x hx => hd ▸ hbefore x hx
    have hcode : BitVec.ofNat 8 d.outcome.code = match d.outcome with
        | .delivered => 0#8 | .cancelled => 1#8 | .noAck => 2#8 | .busyTimeout => 3#8 | .stationLost => 4#8
        | .lineStopped => 5#8 := by
      cases d.outcome <;> rfl
    refine gives_read (work := noteCancel [hi, lo]) (r := .late) rfl h (noteCancel_late (note?_none hno) hwaits) ?_
    exact congrArg (fun x => [0x09#8, x]) hcode
  · exact gives_unchanged (work := noteCancel [hi, lo]) (r := .unknown) rfl h (noteCancel_unknown (note?_none hno) (noteEntry_none hnone))

end Sys2Proof.Machine
end

section
/-! SUPPORT. The mailbox requests (R152 to R154); O45, O46. -/

namespace Sys2Proof.Machine

/-! ## MAILBOX.SET (R152) -/

theorem flag?_of_le {o : Octet} (h : o.toNat ≤ 1) : flag? o = some (o == 0x01#8) := by
  revert o
  decide

theorem flag?_le {o : Octet} {b : Bool} (h : flag? o = some b) : o.toNat ≤ 1 := by
  obtain rfl | rfl := (flag?_isSome_iff o).mp (Option.isSome_iff_exists.mpr ⟨b, h⟩)
  · decide
  · decide

theorem oFlag_of_le {o : Octet} (h : o.toNat ≤ 1) : oFlag (o == 0x01#8) = [o] := by
  revert o
  decide

/-- The mode that an octet names. -/
def modeNamed (o : Octet) : MailboxMode := if o = 0x00#8 then .either else if o = 0x01#8 then .masked else .all

theorem modeOfOctet_of_le {o : Octet} (h : o.toNat ≤ 2) : MailboxMode.ofOctet o = some (modeNamed o) := by
  revert o
  decide

theorem modeOfOctet_le {o : Octet} {m : MailboxMode} (h : MailboxMode.ofOctet o = some m) : o.toNat ≤ 2 := by
  unfold MailboxMode.ofOctet at h
  split_ifs at h with h0 h1 h2
  · exact h0 ▸ by decide
  · exact h1 ▸ by decide
  · exact h2 ▸ by decide

theorem modeNamed_code {o : Octet} (h : o.toNat ≤ 2) : o8 (modeNamed o).code = [o] := by
  revert o
  decide

theorem oRestriction (o : Octet) : o8? (if o = 0xFF#8 then none else some o.toNat) = [o] := by
  by_cases h : o = 0xFF#8
  · rw [if_pos h, h]
    rfl
  · rw [if_neg h]
    exact congrArg (fun x => [x]) ((BitVec.ofNat_toNat ..).trans (BitVec.setWidth_eq o))

section
variable {s : State} {m enabled mode a b general restriction : Octet}

/-- The ranges of MAILBOX.SET (R152, R189). -/
def MailboxSetOk (m enabled mode a b general restriction : Octet) : Prop :=
  m.toNat ≤ 7 ∧ enabled.toNat ≤ 1 ∧ mode.toNat ≤ 2 ∧ a ≠ 0xFF#8 ∧ b ≠ 0xFF#8 ∧ general.toNat ≤ 1
    ∧ (restriction = 0xFF#8 ∨ (1 ≤ restriction.toNat ∧ restriction.toNat ≤ 30))

/-- The filter that MAILBOX.SET gives. -/
def filterGiven (enabled mode a b general restriction : Octet) : Filter where
  enabled := enabled == 0x01#8
  mode := modeNamed mode
  portA := a
  portB := b
  general := general == 0x01#8
  restriction := if restriction = 0xFF#8 then none else some restriction.toNat

theorem parseMailboxSet_of_ok (h : MailboxSetOk m enabled mode a b general restriction) :
    parseMailboxSet [m, enabled, mode, a, b, general, restriction] = some (m.toNat, filterGiven enabled mode a b general restriction) := by
  obtain ⟨hm, henabled, hmode, ha, hb, hgeneral, hrestriction⟩ := h
  unfold parseMailboxSet
  simp only [flag?_of_le henabled, modeOfOctet_of_le hmode, flag?_of_le hgeneral]
  refine if_pos ⟨Nat.lt_succ_of_le hm, ha, hb, ?_⟩
  rwa [isStation_true_iff]

theorem ok_of_parseMailboxSet {x : Nat × Filter} (h : parseMailboxSet [m, enabled, mode, a, b, general, restriction] = some x) :
    MailboxSetOk m enabled mode a b general restriction := by
  unfold parseMailboxSet at h
  dsimp only at h
  split at h
  next e md g he hmd hg =>
    split at h
    next hall =>
      obtain ⟨hm, ha, hb, hrestriction⟩ := hall
      rw [isStation_true_iff] at hrestriction
      exact ⟨Nat.le_of_lt_succ hm, flag?_le he, modeOfOctet_le hmd, ha, hb, flag?_le hg, hrestriction⟩
    next => cases h
  next => cases h

theorem mailboxSet_of_bad (h : ¬MailboxSetOk m enabled mode a b general restriction) :
    mailboxSet [m, enabled, mode, a, b, general, restriction] s = answer s .badArg := by
  unfold mailboxSet
  cases hp : parseMailboxSet [m, enabled, mode, a, b, general, restriction] with
  | none => rfl
  | some x => exact absurd (ok_of_parseMailboxSet hp) h

theorem mailboxSet_of_ok (h : MailboxSetOk m enabled mode a b general restriction) :
    mailboxSet [m, enabled, mode, a, b, general, restriction] s
      = answer (s.modMailbox m.toNat fun x => { x with filter := filterGiven enabled mode a b general restriction }) .ok
        ((filterGiven enabled mode a b general restriction).fields ++ o8 (s.mailbox m.toNat).records.length
          ++ o16 (s.mailbox m.toNat).dropped) := by
  unfold mailboxSet
  rw [parseMailboxSet_of_ok h]

theorem filterFields_octets (h : MailboxSetOk m enabled mode a b general restriction) :
    (filterGiven enabled mode a b general restriction).fields = [enabled, mode, a, b, general, restriction] := by
  obtain ⟨-, henabled, hmode, -, -, hgeneral, -⟩ := h
  unfold Filter.fields filterGiven
  rw [oFlag_of_le henabled, modeNamed_code hmode, oFlag_of_le hgeneral, oRestriction]
  rfl

end

/-! ## MAILBOX.TAKE and MAILBOX.FLUSH (R153, R154) -/

section
variable {s : State} {m : Octet}

theorem mailboxTake_of_no_mailbox (h : 8 ≤ m.toNat) : mailboxTake [m] s = answer s .badArg := if_pos h

theorem mailboxTake_of_empty (h : m.toNat < 8) (hr : (s.mailbox m.toNat).records = []) :
    mailboxTake [m] s = answer s .ok (o8 0 ++ o16 (s.mailbox m.toNat).dropped ++ oFlag false) := by
  refine (if_neg (Nat.not_le_of_lt h)).trans ?_
  simp only [hr]

theorem mailboxTake_of_records (h : m.toNat < 8) {r : MailRecord} {rest : List MailRecord} (hr : (s.mailbox m.toNat).records = r :: rest) :
    mailboxTake [m] s = answer (s.takeMail m.toNat r) .ok
      (o8 rest.length ++ o16 (s.mailbox m.toNat).dropped ++ oFlag true ++ r.fields) := by
  refine (if_neg (Nat.not_le_of_lt h)).trans ?_
  simp only [hr]

theorem mailFields_octets (r : MailRecord) : r.fields =
    [BitVec.ofNat 8 r.source, r.port, match r.matchKind with
      | .a => 0#8 | .b => 1#8 | .masked => 2#8 | .general => 3#8 | .all => 4#8]
      ++ o16 r.length ++ o16 r.stamp.toNat ++ r.body := by
  unfold MailRecord.fields
  cases r.matchKind <;> rfl

theorem mailboxFlush_of_no_mailbox (h : 8 ≤ m.toNat) : mailboxFlush [m] s = answer s .badArg := if_pos h

theorem mailboxFlush_of_mailbox (h : m.toNat < 8) :
    mailboxFlush [m] s = answer (s.flushMail m.toNat) .ok (o8 (s.mailbox m.toNat).records.length) := if_neg (Nat.not_le_of_lt h)

end

/-- Settles O45: the filter by the ranges, and the oldest record by the mailbox. -/
theorem mailboxSetAndTake : Obligations.MailboxSetAndTake := by
  refine ⟨fun s tag m enabled mode a b general restriction h => ?_, fun s tag m h => ?_⟩
  · intro c ok
    refine ⟨fun hno => ?_, fun hok => ?_⟩
    · exact gives_unchanged (work := mailboxSet [m, enabled, mode, a, b, general, restriction]) (r := .badArg) rfl h (mailboxSet_of_bad hno)
    · have hw := mailboxSet_of_ok (s := s.afterTaking) hok
      rw [filterFields_octets hok] at hw
      exact gives_changed (work := mailboxSet [m, enabled, mode, a, b, general, restriction]) (r := .ok) rfl h hw rfl rfl
  · intro two dropped
    refine ⟨fun hm => ?_, fun hm hr => ?_, fun r rest hm hr => ?_⟩
    · exact gives_unchanged (work := mailboxTake [m]) (r := .badArg) rfl h (mailboxTake_of_no_mailbox hm)
    · exact gives_unchanged (work := mailboxTake [m]) (r := .ok) rfl h (mailboxTake_of_empty (s := s.afterTaking) hm hr)
    · intro kind
      have hw := mailboxTake_of_records (s := s.afterTaking) hm hr
      rw [mailFields_octets] at hw
      exact gives_changed (work := mailboxTake [m]) (r := .ok) rfl h hw rfl rfl

/-- Settles O46: the flush by the mailbox. -/
theorem mailboxFlushEmpties : Obligations.MailboxFlushEmpties := fun s _ m h =>
  ⟨fun hm => gives_unchanged (work := mailboxFlush [m]) (r := .badArg) rfl h (mailboxFlush_of_no_mailbox hm),
    fun hm => gives_changed (work := mailboxFlush [m]) (v' := s.afterTaking.flushMail m.toNat) (r := .ok) rfl h
      (mailboxFlush_of_mailbox hm) rfl rfl⟩

end Sys2Proof.Machine
end

section
/-! SUPPORT. Bids, and the octets of circuits (R81, R91, R92); O39, O40. -/

namespace Sys2Proof.Machine

section
variable {s : State} {slot : Nat} {o : Owner}

/-! ## The sampled owner of a slot (R4) -/

theorem atSlot_eq_some_iff {l : List (Option Owner)} : atSlot l slot = some o ↔ 5 ≤ slot ∧ (l[slot - 5]?).join = some o := by
  unfold atSlot
  by_cases h : 5 ≤ slot
  · rw [if_pos h]
    exact (and_iff_right h).symm
  · rw [if_neg h]
    simp [h]

theorem upOwner_eq_some_iff : s.upOwner slot = some o ↔
    (s.pin = .high ∧ s.line.cycleOpen = true ∧ s.line.state = .running ∧ 5 ≤ slot) ∧ (s.line.sampleUp[slot - 5]?).join = some o := by
  unfold State.upOwner
  by_cases h : s.inRunningCycle = true
  · obtain ⟨hpin, hopen, hrun⟩ := inRunningCycle_iff.mp h
    rw [if_pos h, atSlot_eq_some_iff]
    simp [hpin, hopen, hrun]
  · rw [if_neg h]
    rw [inRunningCycle_iff] at h
    simp only [reduceCtorEq, false_iff]
    exact fun hall => h ⟨hall.1.1, hall.1.2.1, hall.1.2.2.1⟩

theorem downOwner_eq_some_iff : s.downOwner slot = some o ↔
    (s.pin = .high ∧ s.line.cycleOpen = true ∧ s.line.state = .running ∧ 5 ≤ slot) ∧ (s.line.sampleDown[slot - 5]?).join = some o := by
  unfold State.downOwner
  by_cases h : s.inRunningCycle = true
  · obtain ⟨hpin, hopen, hrun⟩ := inRunningCycle_iff.mp h
    rw [if_pos h, atSlot_eq_some_iff]
    simp [hpin, hopen, hrun]
  · rw [if_neg h]
    rw [inRunningCycle_iff] at h
    simp only [reduceCtorEq, false_iff]
    exact fun hall => h ⟨hall.1.1, hall.1.2.1, hall.1.2.2.1⟩

/-! ## Circuits (R81) -/

section
variable {n : Nat} {c : Circuit} {octet : Octet}

theorem exec_circuitUpOctet (ho : s.upOwner slot = some (.circuit n)) (hc : s.circuit n = some c) (hin : slot ∈ c.up) :
    exec (.circuitUpOctet slot octet) s = event (s.setCircuit n (some (c.collect slot octet))) := by
  show execCircuitUpOctet slot octet s = _
  unfold execCircuitUpOctet
  simp only [ho, hc, if_pos hin]

theorem exec_circuitUpOctet_skip (ho : ∀ n c, s.upOwner slot = some (.circuit n) → s.circuit n = some c → slot ∉ c.up) :
    exec (.circuitUpOctet slot octet) s = .next s := by
  show execCircuitUpOctet slot octet s = _
  unfold execCircuitUpOctet
  split
  next n hn =>
    split
    next c hc => exact if_neg (ho n c hn hc)
    next => rfl
  all_goals rfl

theorem exec_circuitDownSlot (ho : s.downOwner slot = some (.circuit n)) (hc : s.circuit n = some c) :
    exec (.circuitDownSlot slot) s = event (s.drive slot (c.downOctet slot)) := by
  show execCircuitDownSlot slot s = _
  unfold execCircuitDownSlot
  simp only [ho, hc]

theorem exec_circuitDownSlot_gone (ho : s.downOwner slot = some (.circuit n)) (hc : s.circuit n = none) :
    exec (.circuitDownSlot slot) s = event (s.drive slot 0xFF#8) := by
  show execCircuitDownSlot slot s = _
  unfold execCircuitDownSlot
  simp only [ho, hc, idleOctet]

theorem exec_circuitDownSlot_skip (ho : ∀ n, s.downOwner slot ≠ some (.circuit n)) : exec (.circuitDownSlot slot) s = .next s := by
  show execCircuitDownSlot slot s = _
  unfold execCircuitDownSlot
  split
  next n hn => exact absurd hn (ho n)
  all_goals rfl

end

theorem idxOf_eq_of_first {l : List Nat} {i : Nat} (h : l[i]? = some slot) (hbefore : ∀ j, j < i → l[j]? ≠ some slot) :
    l.idxOf slot = i := by
  obtain ⟨hi, hx⟩ := List.getElem?_eq_some_iff.mp h
  unfold List.idxOf
  rw [List.findIdx_eq hi]
  refine ⟨by simp [hx], fun j hj => ?_⟩
  have hne := hbefore j hj
  rw [List.getElem?_eq_getElem (hj.trans hi)] at hne
  simpa using hne

end

/-- Settles O39: the octets of a circuit's slots, by the sampled owner. -/
theorem circuitOctetsRepeat : Obligations.CircuitOctetsRepeat := by
  intro s slot octet sampled running
  refine ⟨fun n c i hrun hown hc hi hbefore => ?_, fun n hrun hown hgone => ?_, fun n c i hrun hown hc hi hbefore => ?_,
    fun n hrun hown hgone => ?_, fun hno => ?_, fun hno => ?_⟩
  · have hidx := idxOf_eq_of_first hi hbefore
    have hexec := exec_circuitUpOctet (octet := octet) (upOwner_eq_some_iff.mpr ⟨hrun, hown⟩) hc (List.mem_of_getElem? hi)
    refine ⟨fun hcol => gives_of_event _ _ hexec ?_, fun hcol => gives_of_event _ _ hexec ?_⟩
    · rw [Circuit.collect, if_pos hcol, hidx]
      rfl
    · rw [Circuit.collect, hcol, if_neg Bool.false_ne_true]
      rfl
  · refine exec_circuitUpOctet_skip fun k c hk hc => ?_
    obtain ⟨-, hk⟩ := upOwner_eq_some_iff.mp hk
    obtain rfl : n = k := by
      have := hown.symm.trans hk
      simpa using this
    obtain hnone | ⟨c', hc', hout⟩ := hgone
    · exact absurd (hnone.symm.trans hc) (by simp)
    · obtain rfl : c' = c := Option.some.inj (hc'.symm.trans hc)
      exact hout
  · refine gives_of_event _ _ (exec_circuitDownSlot (downOwner_eq_some_iff.mpr ⟨hrun, hown⟩) hc) ?_
    rw [Circuit.downOctet, idxOf_eq_of_first hi hbefore]
    rfl
  · obtain hnone | ⟨c, hc, hout, hlen⟩ := hgone
    · exact gives_of_event _ _ (exec_circuitDownSlot_gone (downOwner_eq_some_iff.mpr ⟨hrun, hown⟩) hnone) rfl
    · refine gives_of_event _ _ (exec_circuitDownSlot (downOwner_eq_some_iff.mpr ⟨hrun, hown⟩) hc) ?_
      rw [Circuit.downOctet, List.idxOf_of_notMem hout, ← hlen, List.getElem?_eq_none (Nat.le_refl _)]
      rfl
  · exact exec_circuitUpOctet_skip fun n c hn _ => absurd ⟨(upOwner_eq_some_iff.mp hn).1, n, (upOwner_eq_some_iff.mp hn).2⟩ hno
  · exact exec_circuitDownSlot_skip fun n hn => hno ⟨(downOwner_eq_some_iff.mp hn).1, n, (downOwner_eq_some_iff.mp hn).2⟩

/-! ## Bids (R91, R92) -/

section
variable {s : State} {octet : Octet}

/-- The ones in the five bits of the address (R91). -/
theorem bidCheck_eq (octet : Octet) : bidCheck (octet.toNat / 8) =
    7 - ((if octet.getLsbD 7 then 1 else 0) + (if octet.getLsbD 6 then 1 else 0)
      + (if octet.getLsbD 5 then 1 else 0) + (if octet.getLsbD 4 then 1 else 0) + (if octet.getLsbD 3 then 1 else 0)) := by
  revert octet
  decide +kernel

theorem classifyBid_eq (h : octet ≠ 0xFF#8) : classifyBid octet =
    if octet.toNat % 8 = bidCheck (octet.toNat / 8) ∧ 1 ≤ octet.toNat / 8 ∧ octet.toNat / 8 ≤ 30 then .station (octet.toNat / 8)
    else .collision :=
  (if_neg h).trans (if_congr (and_congr_right fun _ => isStation_true_iff _) rfl rfl)

theorem askWindow_queued {a : Nat} (hq : a ∈ s.window.queue ∨ ∃ w, s.window.window = some w ∧ w.owner = a) : s.askWindow a = s := by
  refine if_neg fun hall => ?_
  obtain ⟨-, hout, howner⟩ := hall
  obtain hin | ⟨w, hw, how⟩ := hq
  · exact hout hin
  · rw [hw] at howner
    simp [how] at howner

end

/-- Settles O40: the classes of a bid. -/
theorem bidsClassedAndQueued : Obligations.BidsClassedAndQueued := by
  intro s octet a ones wellFormed queued
  have hcheck : bidCheck a = 7 - ones := bidCheck_eq octet
  refine ⟨fun hno => ?_, fun hpin hopen hrun => ?_⟩
  · exact if_neg fun h => hno (inRunningCycle_iff.mp h)
  have hexec : exec (.bidArrival octet) s = event (s.judgeBid (classifyBid octet)) :=
    if_pos (inRunningCycle_iff.mpr ⟨hpin, hopen, hrun⟩)
  have hclass : octet ≠ 0xFF#8 → classifyBid octet = if octet.toNat % 8 = 7 - ones ∧ 1 ≤ a ∧ a ≤ 30 then .station a else .collision := by
    rw [← hcheck]
    exact classifyBid_eq
  have hstation : wellFormed → classifyBid octet = .station a := fun hw => (hclass hw.1).trans (if_pos hw.2)
  refine ⟨fun hidle => ?_, fun hne hbad => ?_, fun hw hst => ?_, fun hw hst hq => ?_, fun hw hst hq => ?_⟩
  · refine gives_of_event _ _ hexec ?_
    rw [hidle]
    rfl
  all_goals
    refine gives_of_event _ _ hexec ?_
  · rw [hclass hne, if_neg fun h => hbad ⟨hne, h⟩]
    rfl
  · rw [hstation hw]
    exact if_neg fun h => hst (isOnline_iff.mp h)
  all_goals
    rw [hstation hw]
    refine (if_pos (isOnline_iff.mpr hst)).trans ?_
  · exact askWindow_queued hq
  · rw [askWindow_spec s a hst, if_pos ⟨fun h => hq (.inl h), fun w hw how => hq (.inr ⟨w, hw, how⟩)⟩]

end Sys2Proof.Machine
end

section
/-! SUPPORT. The octets of a window, and what the receiver makes of them (R97 to R101, R141 to R151); O41, O42, O44. -/

namespace Sys2Proof.Machine

/-! ## The octets of a window (R97) -/

section
variable {s : State} {w : Window} {slot : Nat} {o : Octet}

theorem windowAt_eq_some_iff : s.windowAt slot = some w ↔
    (s.pin = .high ∧ s.line.cycleOpen = true ∧ s.line.state = .running ∧ 5 ≤ slot) ∧ s.window.window = some w
      ∧ (s.line.sampleUp[slot - 5]?).join = some (.lane w.lane) ∧ slot ∈ w.upSet := by
  unfold State.windowAt
  constructor
  · intro h
    split at h
    next l w' hl hw =>
      split_ifs at h with hin
      cases h
      obtain ⟨hrun, hown⟩ := upOwner_eq_some_iff.mp hl
      exact ⟨hrun, hw, hin.1 ▸ hown, hin.2⟩
    next => cases h
  · rintro ⟨hrun, hw, hown, hin⟩
    simp only [upOwner_eq_some_iff.mpr ⟨hrun, hown⟩, hw]
    exact if_pos ⟨trivial, hin⟩

theorem exec_windowUpOctet (h : s.windowAt slot = some w) : exec (.windowUpOctet slot o) s = event (s.windowOctet w slot o) := by
  show execWindowUpOctet slot o s = _
  unfold execWindowUpOctet
  rw [h]

theorem exec_windowEmpty (h : s.windowAt slot = some w) : exec (.windowEmpty slot o) s =
    if w.idleCycle slot o && decide (4 ≤ w.idleRun + 1) then event (s.windowOctet w slot o) else .next s := by
  show execWindowEmpty slot o s = _
  unfold execWindowEmpty
  rw [h]

theorem exec_window_outside (h : s.windowAt slot = none) :
    exec (.windowUpOctet slot o) s = .next s ∧ exec (.windowEmpty slot o) s = .next s := by
  refine ⟨?_, ?_⟩
  · show execWindowUpOctet slot o s = _
    unfold execWindowUpOctet
    rw [h]
  · show execWindowEmpty slot o s = _
    unfold execWindowEmpty
    rw [h]

theorem idleCycle_iff : w.idleCycle slot o = true ↔ w.packetStarted = false ∧ o = 0xFF#8 ∧ ∀ x ∈ w.upSet, x ≤ slot := by
  simp [Window.idleCycle, Window.lastSlot, idleOctet, and_assoc]

/-- The window unit with the window's record replaced. -/
def State.withWindow (s : State) (w : Window) : State := { s with window := { s.window with window := some w } }

/-- The window's record after an octet that completes no idle cycle. -/
def Window.octet (w : Window) (o : Octet) : Window := { w with packetStarted := w.packetStarted || decide (o ≠ 0xFF#8) }

theorem windowOctet_busy (h : w.idleCycle slot o = false) : s.windowOctet w slot o = (s.withWindow (w.octet o)).receive (w.octet o) o := by
  unfold State.windowOctet
  rw [h]
  exact if_neg fun hi => Bool.false_ne_true hi.1

theorem withWindow_self (hw : s.window.window = some w) : s.withWindow w = s := by
  unfold State.withWindow
  rw [← hw]

theorem octet_of_started (hp : w.packetStarted = true) (o : Octet) : w.octet o = w := by
  unfold Window.octet
  rw [hp, Bool.true_or, ← hp]

/-- Once a packet has started every octet goes to the receiver. -/
theorem windowOctet_started (hw : s.window.window = some w) (hp : w.packetStarted = true) : s.windowOctet w slot o = s.receive w o := by
  have hidle : w.idleCycle slot o = false := Bool.eq_false_iff.mpr fun h => by
    have := (idleCycle_iff.mp h).1
    simp [hp] at this
  rw [windowOctet_busy hidle, octet_of_started hp, withWindow_self hw]

theorem windowOctet_idle (h : w.idleCycle slot o = true) : s.windowOctet w slot o =
    if 4 ≤ w.idleRun + 1 then ((s.withWindow { w with idleRun := w.idleRun + 1 }).receive { w with idleRun := w.idleRun + 1 } o).endWindow .empty
    else (s.withWindow { w with idleRun := w.idleRun + 1 }).receive { w with idleRun := w.idleRun + 1 } o := by
  obtain ⟨hp, ho, -⟩ := idleCycle_iff.mp h
  have hoctet : (w.packetStarted || decide (o ≠ idleOctet)) = w.packetStarted := by
    rw [hp, ho]
    rfl
  unfold State.windowOctet
  simp only [h, hoctet, if_true, true_and]
  rfl

/-! ## The ends of a window (R100) -/

/-- An end of the window that the receiver has dealt with. -/
theorem endWindow_byReceiver {e : WindowEnd} (he : e.byReceiver = true) (hw : s.window.window = some w) :
    s.endWindow e = { s with window := { s.window with window := none } } := by
  unfold State.endWindow
  rw [hw]
  cases e with
  | complete | foreign | long => rfl
  | empty | overrun | lost | lineDown => cases he
  | slotsLost x => cases he

theorem endWindow_empty (hw : s.window.window = some w) (hidle : s.rx.state = .idle) : s.endWindow .empty =
    { s with
      window := { s.window with window := none }
      rep := s.rep.handOver (.rxFault (s.rxFault w .empty)) } := by
  have hdiscard : (s.report (.rxFault (s.rxFault w .empty))).discardPacket = s.report (.rxFault (s.rxFault w .empty)) := if_pos hidle
  unfold State.endWindow
  rw [hw]
  exact congrArg (fun x : State => { x with window := { x.window with window := none } }) hdiscard

/-! ## The receiver (R141, R146) -/

theorem receive_idle_skip (hidle : s.rx.state = .idle) (ho : o = 0xFF#8) : s.receive w o = s := by
  unfold State.receive
  simp only [hidle]
  exact if_pos ho

theorem receive_idle_begins (hidle : s.rx.state = .idle) (ho : o ≠ 0xFF#8) : s.receive w o =
    { s with
      rx :=
        { s.rx with
          state := .header
          record := { ReceiveRecord.empty with port := some o, taken := 1, check := crc [o], stamp := s.line.cycleCounter } } } := by
  unfold State.receive
  simp only [hidle]
  exact if_neg ho

end

/-- Settles O41: the octets of the up set before a packet. -/
theorem idleWindowCounts : Obligations.IdleWindowCounts := by
  intro s slot octet running taken last
  have hat : ∀ w, taken w ↔ s.windowAt slot = some w := fun w =>
    ⟨fun h => windowAt_eq_some_iff.mpr h, fun h => windowAt_eq_some_iff.mp h⟩
  refine ⟨fun hno => ?_, fun w htaken hp => ?_, fun w htaken hp hidle => ?_⟩
  · refine exec_window_outside (Option.eq_none_iff_forall_ne_some.mpr fun w h => hno w ((hat w).mpr h))
  · rw [exec_windowEmpty ((hat w).mp htaken), if_neg]
    simp [Window.idleCycle, hp]
  have hw : s.window.window = some w := htaken.2.1
  have hcall := exec_windowUpOctet (o := octet) ((hat w).mp htaken)
  have hempty := exec_windowEmpty (o := octet) ((hat w).mp htaken)
  have hcycle : w.idleCycle slot octet = true ↔ octet = 0xFF#8 ∧ last w := by
    rw [idleCycle_iff, hp]
    exact and_iff_right rfl
  refine ⟨fun ho => ?_, fun ho hlast => ?_, fun ho hlast hrun => ?_, fun ho hlast hrun c hc => ?_⟩
  · have hbusy : w.idleCycle slot octet = false := Bool.eq_false_iff.mpr fun h => ho (hcycle.mp h).1
    have hstarted : w.octet octet = { w with packetStarted := true } := by
      unfold Window.octet
      rw [decide_eq_true ho, Bool.or_true]
    refine ⟨hempty.trans (if_neg (by simp [hbusy])), gives_of_event _ _ hcall ?_⟩
    rw [windowOctet_busy hbusy, hstarted, receive_idle_begins (s := s.withWindow { w with packetStarted := true }) hidle ho]
    rfl
  · have hbusy : w.idleCycle slot octet = false := Bool.eq_false_iff.mpr fun h => hlast (hcycle.mp h).2
    have hsame : w.octet octet = w := by
      unfold Window.octet
      rw [decide_eq_false (not_not.mpr ho), Bool.or_false]
    refine ⟨hempty.trans (if_neg (by simp [hbusy])), gives_of_event _ _ hcall ?_⟩
    rw [windowOctet_busy hbusy, hsame, withWindow_self hw, receive_idle_skip hidle ho]
  · refine ⟨hempty.trans (if_neg fun h => ?_), gives_of_event _ _ hcall ?_⟩
    · exact absurd (of_decide_eq_true (Bool.and_eq_true_iff.mp h).2) (Nat.not_le_of_lt hrun)
    · rw [windowOctet_idle (hcycle.mpr ⟨ho, hlast⟩), if_neg (Nat.not_le_of_lt hrun),
        receive_idle_skip (s := s.withWindow { w with idleRun := w.idleRun + 1 }) hidle ho]
      rfl
  · have hall : exec c s = event (s.windowOctet w slot octet) := by
      obtain rfl | rfl := hc
      · exact hcall
      · exact hempty.trans (if_pos (Bool.and_eq_true_iff.mpr ⟨hcycle.mpr ⟨ho, hlast⟩, decide_eq_true hrun⟩))
    refine gives_of_event _ _ hall ?_
    rw [windowOctet_idle (hcycle.mpr ⟨ho, hlast⟩), if_pos hrun,
      receive_idle_skip (s := s.withWindow { w with idleRun := w.idleRun + 1 }) hidle ho,
      endWindow_empty (s := s.withWindow { w with idleRun := w.idleRun + 1 }) (w := { w with idleRun := w.idleRun + 1 }) rfl hidle]
    rfl

/-! ## The header (R141 to R145, R149) -/

section
variable {s : State} {w : Window} {o : Octet}

theorem receive_header (hst : s.rx.state = .header) : s.receive w o = s.takeHeader w o := by
  unfold State.receive
  simp only [hst]

theorem withRecord_same (r : ReceiveRecord) {st : ReceiverState} (hst : s.rx.state = st) :
    s.withRecord st r = { s with rx := { s.rx with record := r } } := by
  rw [← hst]
  rfl

theorem takeHeader_station (h : s.rx.record.station = none) :
    s.takeHeader w o = s.withRecord .header { s.rx.record.takeChecked o with station := some o } := by
  unfold State.takeHeader
  simp only [ReceiveRecord.takeChecked, h]

theorem takeHeader_lengthHigh {st : Octet} (h : s.rx.record.station = some st) (hl : s.rx.record.lengthHigh = none) :
    s.takeHeader w o = s.withRecord .header { s.rx.record.takeChecked o with lengthHigh := some o } := by
  unfold State.takeHeader
  simp only [ReceiveRecord.takeChecked, h, hl]

theorem takeHeader_judged {port st hi : Octet} (hp : s.rx.record.port = some port) (h : s.rx.record.station = some st)
    (hl : s.rx.record.lengthHigh = some hi) : s.takeHeader w o =
      (s.withRecord .header { s.rx.record.takeChecked o with length := some (nat16 hi o) }).judgeHeader w port st (nat16 hi o) := by
  unfold State.takeHeader
  simp only [ReceiveRecord.takeChecked, hp, h, hl, Option.getD_some]

/-- An RX_FAULT of the packet in progress, its port and its length known. -/
theorem rxFault_withRecord (st : ReceiverState) {r : ReceiveRecord} {port : Octet} {length : Nat} (hp : r.port = some port)
    (hl : r.length = some length) (k : ReceiveFault) : (s.withRecord st r).rxFault w k =
      { fault := k, owner := w.owner, lane := w.lane, port := some port, length := some length, cyclesUsed := w.cyclesUsed
        slotLost := none, stationField := none, checks := none, cycle := s.line.cycleCounter } := by
  rw [← hp, ← hl]
  rfl

end

section
variable {s : State} {w : Window} {port st : Octet} {length : Nat}

theorem judgeHeader_foreign (h : st.toNat ≠ w.owner) (hw : s.window.window = some w) : s.judgeHeader w port st length =
    { s with
      window := { s.window with window := none }
      rx := { s.rx with state := .idle, record := .empty, foreign := min 65535 (s.rx.foreign + 1) }
      rep := s.rep.handOver (.rxFault { s.rxFault w .foreign with stationField := some st }) } := by
  refine (if_pos h).trans (endWindow_byReceiver rfl hw)

theorem judgeHeader_long (h : st.toNat = w.owner) (hl : 512 < length) (hw : s.window.window = some w) : s.judgeHeader w port st length =
    { s with
      window := { s.window with window := none }
      rx := { s.rx with state := .idle, record := .empty, long := min 65535 (s.rx.long + 1) }
      rep := s.rep.handOver (.rxFault (s.rxFault w .long)) } :=
  (if_neg (not_not.mpr h)).trans ((if_pos hl).trans (endWindow_byReceiver rfl hw))

theorem judgeHeader_sorts (h : st.toNat = w.owner) (hl : length ≤ 512) : s.judgeHeader w port st length = s.decideSort w port st length :=
  (if_neg (not_not.mpr h)).trans (if_neg (Nat.not_lt.mpr hl))

theorem decideSort_unclaimed (h : s.sort port st = none) : s.decideSort w port st length =
    { s with
      rx :=
        { s.rx with
          state := .drain, unclaimed := min 65535 (s.rx.unclaimed + 1)
          record := { s.rx.record with fault := some .unclaimed, mailbox := none, matchKind := none } }
      rep := s.rep.handOver (.rxFault (s.rxFault w .unclaimed)) } := by
  unfold State.decideSort
  rw [h]
  rfl

/-- A packet that its mailbox cannot take: the mailbox counts it and the receiver drains it (R149). -/
def State.dropsPacket (s : State) (m : Nat) (k : MatchKind) (fault : SortFault) (r : Report) : State :=
  { s.modMailbox m fun b => { b with dropped := min 65535 (b.dropped + 1) } with
    rx :=
      { s.rx with
        state := .drain
        record := { s.rx.record with fault := some fault, mailbox := some m, matchKind := some k } }
    rep := s.rep.handOver r }

section
variable {m : Nat} {k : MatchKind} (h : s.sort port st = some (m, k))
include h

theorem decideSort_full (hm : 8 ≤ (s.mailbox m).records.length) : s.decideSort w port st length =
    s.dropsPacket m k .mailboxFull (.mailDropped m 1 0 w.owner port s.line.cycleCounter) := by
  unfold State.decideSort
  rw [h]
  exact if_pos hm

theorem decideSort_noBuffer (hm : (s.mailbox m).records.length < 8) (hf : s.free < blocksFor length) : s.decideSort w port st length =
    s.dropsPacket m k .noBuffer (.mailDropped m 0 1 w.owner port s.line.cycleCounter) := by
  unfold State.decideSort
  rw [h]
  exact (if_neg (Nat.not_le_of_lt hm)).trans (if_pos hf)

theorem decideSort_taken (hm : (s.mailbox m).records.length < 8) (hf : blocksFor length ≤ s.free) : s.decideSort w port st length =
    { s with
      free := s.free - blocksFor length
      rx :=
        { s.rx with
          state := if length = 0 then .check else .body
          record := { s.rx.record with mailbox := some m, matchKind := some k } } } := by
  unfold State.decideSort
  rw [h]
  exact (if_neg (Nat.not_le_of_lt hm)).trans (if_neg (Nat.not_lt.mpr hf))

end

end

/-- Settles O42: the octets of the header, and its judgement. -/
theorem headerJudgedAtFourthOctet : Obligations.HeaderJudgedAtFourthOctet := by
  intro s slot octet port w hpin hopen hrun hslot hown hin hw hstarted hst hport c r next fault closed
  have hexec : exec c s = event (s.takeHeader w octet) := by
    rw [exec_windowUpOctet (windowAt_eq_some_iff.mpr ⟨⟨hpin, hopen, hrun, hslot⟩, hw, hown, hin⟩), windowOctet_started hw hstarted,
      receive_header hst]
  refine ⟨fun hnone => ?_, fun st hs hl => ?_, fun st hi hs hl => ?_⟩
  · exact gives_of_event _ _ hexec ((takeHeader_station hnone).trans (withRecord_same _ hst))
  · exact gives_of_event _ _ hexec ((takeHeader_lengthHigh hs hl).trans (withRecord_same _ hst))
  intro length judged blocks
  have hjudge : s.takeHeader w octet = (s.withRecord .header judged).judgeHeader w port st length := takeHeader_judged hport hs hl
  rw [hjudge] at hexec
  have hfault := rxFault_withRecord (s := s) (w := w) .header (r := judged) hport rfl
  have hopened : (s.withRecord .header judged).window.window = some w := hw
  have hsame : (s.withRecord .header judged).sort = s.sort := rfl
  have hbox : (s.withRecord .header judged).mailbox = s.mailbox := rfl
  have hfree : (s.withRecord .header judged).free = s.free := rfl
  generalize hx : s.withRecord .header judged = x at hexec hfault hopened hsame hbox hfree
  refine ⟨fun hforeign => ?_, fun hmine hlong => ?_, fun hmine hfits hsort => ?_, fun m k hmine hfits hsort => ⟨fun hfull => ?_,
    fun hroom hblocks => ?_, fun hroom hblocks => ?_⟩⟩
  all_goals
    refine gives_of_event _ _ hexec ?_
  · rw [judgeHeader_foreign hforeign hopened, hfault, ← hx]
    rfl
  · rw [judgeHeader_long hmine hlong hopened, hfault, ← hx]
    rfl
  all_goals
    rw [judgeHeader_sorts hmine hfits]
  · rw [decideSort_unclaimed (hsame ▸ hsort), hfault, ← hx]
    rfl
  · rw [decideSort_full (hsame ▸ hsort) (hbox ▸ hfull), ← hx]
    rfl
  · rw [decideSort_noBuffer (hsame ▸ hsort) (hbox ▸ hroom) (hfree ▸ hblocks), ← hx]
    rfl
  · rw [decideSort_taken (hsame ▸ hsort) (hbox ▸ hroom) (hfree ▸ hblocks), ← hx]
    rfl

/-! ## Body, check and drain (R146 to R149) -/

section
variable {s : State} {w : Window} {o : Octet} {length : Nat}

theorem receive_body (hst : s.rx.state = .body) (hl : s.rx.record.length = some length) : s.receive w o =
    { s with
      rx :=
        { s.rx with
          state := if s.rx.record.taken + 1 = length + 4 then .check else .body
          record :=
            { s.rx.record with
              taken := s.rx.record.taken + 1, check := crcOctet s.rx.record.check o, body := s.rx.record.body ++ [o] } } } := by
  unfold State.receive
  simp only [hst, hl, ReceiveRecord.takeChecked, Option.getD_some]
  rfl

theorem receive_checkHigh (hst : s.rx.state = .check) (hc : s.rx.record.checkHigh = none) : s.receive w o =
    { s with rx := { s.rx with record := { s.rx.record with taken := s.rx.record.taken + 1, checkHigh := some o } } } := by
  have hwork : s.receive w o = s.withRecord .check { s.rx.record.take with checkHigh := some o } := by
    unfold State.receive
    simp only [hst, hc]
  exact hwork.trans (withRecord_same _ hst)

theorem receive_drain_more (hst : s.rx.state = .drain) (hl : s.rx.record.length = some length) (h : s.rx.record.taken + 1 ≠ length + 6) :
    s.receive w o = { s with rx := { s.rx with record := { s.rx.record with taken := s.rx.record.taken + 1 } } } := by
  have hwork : s.receive w o = s.withRecord .drain s.rx.record.take := by
    unfold State.receive
    simp only [hst, hl, Option.getD_some, if_neg h]
  exact hwork.trans (withRecord_same _ hst)

theorem receive_drain_last (hst : s.rx.state = .drain) (hl : s.rx.record.length = some length) (h : s.rx.record.taken + 1 = length + 6)
    (hw : s.window.window = some w) : s.receive w o =
      { s with window := { s.window with window := none }, rx := { s.rx with state := .idle, record := .empty } } := by
  have hwork : s.receive w o = s.idleReceiver.endWindow .complete := by
    unfold State.receive
    simp only [hst, hl, Option.getD_some, if_pos h]
  exact hwork.trans (endWindow_byReceiver (s := s.idleReceiver) rfl hw)

section
variable {hi port st : Octet} {m : Nat} {k : MatchKind} (hst : s.rx.state = .check) (hc : s.rx.record.checkHigh = some hi)
include hst hc

theorem receive_check_good (hp : s.rx.record.port = some port) (hs : s.rx.record.station = some st) (hl : s.rx.record.length = some length)
    (hm : s.rx.record.mailbox = some m) (hk : s.rx.record.matchKind = some k) (h : word16 hi o = s.rx.record.check) :
    s.receive w o = s.storePacket port st.toNat length m k := by
  unfold State.receive
  simp only [hst, hc, hp, hs, hl, hm, hk, Option.getD_some, if_pos h]

theorem receive_check_bad (h : word16 hi o ≠ s.rx.record.check) : s.receive w o = s.rejectPacket w (word16 hi o) := by
  unfold State.receive
  simp only [hst, hc, if_neg h]

end

theorem storePacket_eq (hw : s.window.window = some w) (port : Octet) (source m : Nat) (k : MatchKind) :
    s.storePacket port source length m k =
      { s.modMailbox m fun b =>
          { b with
            records := b.records ++
              [{ source := source, port := port, matchKind := k, length := length, stamp := s.rx.record.stamp, body := s.rx.record.body }] } with
        window := { s.window with window := none }
        rx := { s.rx with state := .idle, record := .empty, stored := min 65535 (s.rx.stored + 1) }
        rep := if (s.mailbox m).records = [] then
            s.rep.handOver (.mailWaiting m source port length s.rx.record.stamp)
          else s.rep } := by
  unfold State.storePacket
  by_cases h : (s.mailbox m).records = []
  · simp only [h, List.isEmpty_nil, if_true]
    exact endWindow_byReceiver rfl hw
  · simp only [List.isEmpty_iff, h, if_false]
    exact endWindow_byReceiver rfl hw

/-- A change of a station entry and a change of the pool and the receiver. -/
theorem modStation_with_receiver (s : State) (free : Nat) (rx : Receiver) (a : Nat) (f : Station → Station) :
    State.modStation { s with free := free, rx := rx } a f = { s.modStation a f with free := free, rx := rx } := by
  cases a <;> rfl

theorem rejectPacket_eq (hw : s.window.window = some w) (received : BitVec 16) : s.rejectPacket w received =
    { s.modStation w.owner fun t => { t with badCheckPackets := min 65535 (t.badCheckPackets + 1) } with
      window := { s.window with window := none }
      free := s.free + s.rx.held
      rx := { s.rx with state := .idle, record := .empty, badCheck := min 65535 (s.rx.badCheck + 1) }
      rep := s.rep.handOver (.rxFault { s.rxFault w .badCheck with checks := some (received, s.rx.record.check) }) } := by
  have hwindow : (s.modStation w.owner fun t => { t with badCheckPackets := sat16 t.badCheckPackets }).window = s.window := by simp
  have hrep : (s.modStation w.owner fun t => { t with badCheckPackets := sat16 t.badCheckPackets }).rep = s.rep := by simp
  unfold State.rejectPacket
  dsimp only
  rw [modStation_with_receiver]
  refine (endWindow_byReceiver rfl (hwindow ▸ hw)).trans ?_
  simp only [State.report, State.idleReceiver, hwindow, hrep]
  rfl

end

theorem held_of_check {r : Receiver} {length : Nat} (hst : r.state = .check) (hl : r.record.length = some length) :
    r.held = max 1 ((length + 31) / 32) := by
  unfold Receiver.held
  rw [hst, hl]
  rfl

/-- Settles O44: the octets of a packet after its header. -/
theorem bodyAndCheckDecidePacket : Obligations.BodyAndCheckDecidePacket := by
  intro s slot octet w hpin hopen hrun hslot hown hin hw hstarted c r closed
  have hexec : exec c s = event (s.receive w octet) := by
    rw [exec_windowUpOctet (windowAt_eq_some_iff.mpr ⟨⟨hpin, hopen, hrun, hslot⟩, hw, hown, hin⟩), windowOctet_started hw hstarted]
  refine ⟨fun length hl hst => gives_of_event _ _ hexec (receive_body hst hl),
    fun hst hc => gives_of_event _ _ hexec (receive_checkHigh hst hc),
    fun hi port st length m k hst hc hp hs hl hm hk => ?_,
    fun length hl hst => ⟨fun hmore => gives_of_event _ _ hexec (receive_drain_more hst hl hmore),
      fun hlast => gives_of_event _ _ hexec (receive_drain_last hst hl hlast hw)⟩⟩
  intro received
  refine ⟨fun hgood => gives_of_event _ _ hexec ?_, fun hbad => gives_of_event _ _ hexec ?_⟩
  · exact (receive_check_good hst hc hp hs hl hm hk hgood).trans (storePacket_eq hw port st.toNat m k)
  · have hfault : s.rxFault w .badCheck =
        { fault := .badCheck, owner := w.owner, lane := w.lane, port := some port, length := some length, cyclesUsed := w.cyclesUsed
          slotLost := none, stationField := none, checks := none, cycle := s.line.cycleCounter } := by
      rw [← hp, ← hl]
      rfl
    rw [receive_check_bad hst hc hbad, rejectPacket_eq hw, hfault, held_of_check hst hl]

end Sys2Proof.Machine
end

section
/-! SUPPORT. The packet requests (R109, R110, R113, R121 to R123, R131, R133, R136, R137); O47 to O50. -/

namespace Sys2Proof.Machine

/-! ## Queues -/

section
variable {α : Type} {key : α → Nat} {A B : List α} {x : α}

/-- The one element of its key is changed. -/
theorem map_key_of_split (h : ∀ y ∈ A ++ B, key y ≠ key x) (f : α → α) :
    (A ++ x :: B).map (fun y => if key y = key x then f y else y) = A ++ f x :: B := by
  have hsame : ∀ l : List α, (∀ y ∈ l, key y ≠ key x) → l.map (fun y => if key y = key x then f y else y) = l := fun l hl => by
    conv_rhs => rw [← List.map_id l]
    exact List.map_congr_left fun y hy => if_neg (hl y hy)
  rw [List.map_append, List.map_cons, if_pos rfl, hsame A fun y hy => h y (List.mem_append_left _ hy),
    hsame B fun y hy => h y (List.mem_append_right _ hy)]

/-- The one element of its key leaves. -/
theorem filter_key_of_split (h : ∀ y ∈ A ++ B, key y ≠ key x) : (A ++ x :: B).filter (fun y => key y != key x) = A ++ B := by
  have hsame : ∀ l : List α, (∀ y ∈ l, key y ≠ key x) → l.filter (fun y => key y != key x) = l := fun l hl =>
    List.filter_eq_self.mpr fun y hy => by simpa using hl y hy
  rw [List.filter_append, List.filter_cons_of_neg (by simp), hsame A fun y hy => h y (List.mem_append_left _ hy),
    hsame B fun y hy => h y (List.mem_append_right _ hy)]

/-- Elements of different places have different keys. -/
theorem key_ne_of_nodup (h : ((A ++ x :: B).map key).Nodup) : ∀ y ∈ A ++ B, key y ≠ key x := by
  rw [List.map_append, List.map_cons, List.nodup_append] at h
  obtain ⟨-, hB, hdisjoint⟩ := h
  intro y hy
  obtain hy | hy := List.mem_append.mp hy
  · exact hdisjoint _ (List.mem_map_of_mem hy) _ List.mem_cons_self
  · exact fun he => (List.nodup_cons.mp hB).1 (he ▸ List.mem_map_of_mem hy)

/-- Of two elements that a function keeps under one value there is only one. -/
theorem eq_of_nodup_filterMap {l : List α} {f : α → Option Nat} (h : (l.filterMap f).Nodup) {y : α} {v : Nat} (hx : x ∈ l) (hy : y ∈ l)
    (hfx : f x = some v) (hfy : f y = some v) : x = y := by
  obtain ⟨A, B, rfl⟩ := List.append_of_mem hx
  rw [List.filterMap_append, List.filterMap_cons_some hfx, List.nodup_append] at h
  obtain ⟨-, hB, hdisjoint⟩ := h
  obtain hy | hy := List.mem_append.mp hy
  · exact absurd rfl (hdisjoint v (List.mem_filterMap.mpr ⟨y, hy, hfy⟩) v List.mem_cons_self)
  · obtain rfl | hy := List.mem_cons.mp hy
    · rfl
    · exact absurd (List.mem_filterMap.mpr ⟨y, hy, hfy⟩) (List.nodup_cons.mp hB).1

end

section
variable {s : State} {l : Nat} {p : Packet} {A B : List Packet}

theorem modLane_modLane (s : State) (l : Nat) (f g : Lane → Lane) : (s.modLane l f).modLane l g = s.modLane l (g ∘ f) := by
  unfold State.modLane
  simp only [List.modify_modify_eq]

/-- Two changes that agree on the present lane. -/
theorem modLane_of_eq {f g : Lane → Lane} (h : f (s.lane l) = g (s.lane l)) : s.modLane l f = s.modLane l g := by
  unfold State.modLane
  have hlanes : s.lanes.modify l f = s.lanes.modify l g := by
    refine List.ext_getElem? fun i => ?_
    rw [List.getElem?_modify, List.getElem?_modify]
    by_cases hi : l = i
    · subst hi
      cases hx : s.lanes[l]? with
      | none => rfl
      | some x =>
        have hlane : s.lane l = x := by simp [State.lane, hx]
        rw [hlane] at h
        simpa using h
    · simp [hi]
  rw [hlanes]

theorem finishPacket_eq (s : State) (l : Nat) (p : Packet) (o : PacketOutcome) (r : Option PacketReason) : s.finishPacket l p o r =
    { s.modLane l fun x => { x with queue := x.queue.filter fun q => q.handle != p.handle } with
      free := s.free + blocksFor p.declared
      rep := s.rep.placed s.line.cycleCounter (.packet (p.done l o r s.line.cycleCounter)) } := rfl

theorem finishPacket_of_split (hq : (s.lane l).queue = A ++ p :: B) (hone : ∀ q ∈ A ++ B, q.handle ≠ p.handle) (o : PacketOutcome)
    (r : Option PacketReason) : s.finishPacket l p o r =
      { s.modLane l fun x => { x with queue := A ++ B } with
        free := s.free + blocksFor p.declared
        rep := s.rep.placed s.line.cycleCounter (.packet (p.done l o r s.line.cycleCounter)) } := by
  rw [finishPacket_eq, modLane_of_eq (g := fun x => { x with queue := A ++ B })]
  exact congrArg (fun q => { s.lane l with queue := q }) (hq ▸ filter_key_of_split hone)

theorem modPacket_of_split (hq : (s.lane l).queue = A ++ p :: B) (hone : ∀ q ∈ A ++ B, q.handle ≠ p.handle) (f : Packet → Packet) :
    s.modPacket l p.handle f = s.modLane l fun x => { x with queue := A ++ f p :: B } :=
  modLane_of_eq (congrArg (fun q => { s.lane l with queue := q }) (hq ▸ map_key_of_split hone f))

/-! ## The packet that a handle names (R121, R123) -/

theorem queue_nodup (hlive : LiveHandles s) (l : Nat) : ((s.lane l).queue.map (·.handle)).Nodup := by
  have h := keys_nodup hlive l
  rwa [Lane.keys, List.map_map] at h

theorem findPacket_eq_none {h n : Nat} {ls : List Lane} (hno : findPacket h n ls = none) : ∀ y ∈ ls, ∀ p ∈ y.queue, p.handle ≠ h := by
  induction ls generalizing n with
  | nil => simp
  | cons x ls ih =>
    unfold findPacket at hno
    split at hno
    next => cases hno
    next hx =>
      intro y hy p hp
      obtain rfl | hy := List.mem_cons.mp hy
      · simpa using List.find?_eq_none.mp hx p hp
      · exact ih hno y hy p hp

theorem findPacket_none_of {h n : Nat} {ls : List Lane} (hno : ∀ y ∈ ls, ∀ p ∈ y.queue, p.handle ≠ h) : findPacket h n ls = none := by
  induction ls generalizing n with
  | nil => rfl
  | cons x ls ih =>
    have hx : (x.queue.find? fun p => p.handle == h) = none :=
      List.find?_eq_none.mpr fun p hp => by simpa using hno x List.mem_cons_self p hp
    unfold findPacket
    rw [hx]
    exact ih fun y hy => hno y (List.mem_cons_of_mem _ hy)

theorem lane_mem (hl : l < s.lanes.length) : s.lane l ∈ s.lanes := by
  rw [State.lane, List.getElem?_eq_getElem hl]
  exact List.getElem_mem hl

theorem packet?_none (hs : Shape s) {h : Nat} (hno : ∀ l, l < 4 → ∀ p ∈ (s.lane l).queue, p.handle ≠ h) : s.packet? h = none := by
  refine findPacket_none_of fun y hy => ?_
  obtain ⟨l, hl, rfl⟩ := List.mem_iff_getElem.mp hy
  have hlane : s.lane l = s.lanes[l] := by simp [State.lane, List.getElem?_eq_getElem hl]
  exact hlane ▸ hno l (hs.lanes ▸ hl)

/-- Queued packets of different lanes have different handles. -/
theorem lane_eq_of_handle (hlive : LiveHandles s) {l' : Nat} {q : Packet} (hl : l < s.lanes.length) (hl' : l' < s.lanes.length)
    (hp : p ∈ (s.lane l).queue) (hq : q ∈ (s.lane l').queue) (h : p.handle = q.handle) : l = l' := by
  have hlanes : (s.lanes.flatMap fun x => x.queue.map (·.handle)).Nodup := (List.nodup_append.mp hlive.packets).1
  obtain ⟨-, hdisjoint⟩ := List.nodup_flatMap.mp hlanes
  rw [List.pairwise_iff_getElem] at hdisjoint
  have hlane : ∀ k (hk : k < s.lanes.length), s.lane k = s.lanes[k] := fun k hk => by simp [State.lane, List.getElem?_eq_getElem hk]
  rw [hlane l hl] at hp
  rw [hlane l' hl'] at hq
  have hpmem : p.handle ∈ s.lanes[l].queue.map (·.handle) := List.mem_map_of_mem hp
  have hqmem : p.handle ∈ s.lanes[l'].queue.map (·.handle) := by
    rw [h]
    exact List.mem_map_of_mem hq
  obtain hlt | heq | hgt := Nat.lt_trichotomy l l'
  · exact (hdisjoint l l' hl hl' hlt hpmem hqmem).elim
  · exact heq
  · exact (hdisjoint l' l hl' hl hgt hqmem hpmem).elim

theorem packet?_of_split (hs : Shape s) (hlive : LiveHandles s) (hl : l < 4) (hq : (s.lane l).queue = A ++ p :: B) :
    s.packet? p.handle = some (l, p) := by
  have hl' : l < s.lanes.length := hs.lanes ▸ hl
  have hmem : p ∈ (s.lane l).queue := by simp [hq]
  cases hfound : s.packet? p.handle with
  | none => exact absurd rfl (findPacket_eq_none hfound _ (lane_mem hl') p hmem)
  | some x =>
    obtain ⟨k, q⟩ := x
    obtain ⟨hk, hqmem, hhandle⟩ := mem_of_packet? hfound
    obtain rfl := lane_eq_of_handle hlive hk hl' hqmem hmem hhandle
    have hnodup := queue_nodup hlive k
    obtain rfl : q = p := List.inj_on_of_nodup_map hnodup hqmem hmem hhandle
    rfl

end

end Sys2Proof.Machine
end

section
/-! SUPPORT. PACKET.SEND, PACKET.ADD and PACKET.CANCEL (R109, R110, R113, R121 to R123, R131, R136, R137); O47 to O49. -/

namespace Sys2Proof.Machine

/-! ## PACKET.SEND -/

section
variable {s : State} {l dest port hi lo : Octet} {segment : List Octet}

/-- The fields of a PACKET.SEND of a size that the link can carry. -/
def sendFields (l dest port hi lo : Octet) (segment : List Octet) : PacketSendFields where
  lane := l.toNat
  destination := dest.toNat
  port := port
  declared := nat16 hi lo
  segment := segment

theorem parsePacketSend_of_size (hlen : segment.length ≤ 512) :
    parsePacketSend ([l, dest, port, hi, lo] ++ segment) = some (sendFields l dest port hi lo segment) := if_pos hlen

theorem sendFields_inRange_iff : (sendFields l dest port hi lo segment).inRange = true ↔
    l.toNat ≤ 3 ∧ (1 ≤ dest.toNat ∧ dest.toNat ≤ 31) ∧ port ≠ 0xFF#8 ∧ nat16 hi lo ≤ 512 ∧ segment.length ≤ nat16 hi lo :=
  decide_eq_true_iff.trans (and_congr_left' Nat.lt_succ_iff)

/-- The limits of R122. -/
theorem packetLimit_eq (s : State) (l : Nat) : s.packetLimit l =
    if 16 ≤ (s.lane l).queue.length then some .queue else if 96 ≤ s.placesHeld then some .completions else none := rfl

theorem nextPacket_fresh (h : s.placesHeld < 96) : s.nextPacket ∉ s.livePackets :=
  nextHandle_fresh _ _ (Nat.lt_of_le_of_lt (livePackets_length_le s) (h.trans (by decide)))

section
variable (hlen : segment.length ≤ 512)
include hlen

theorem packetSend_bad (h : ¬(sendFields l dest port hi lo segment).inRange = true) :
    packetSend ([l, dest, port, hi, lo] ++ segment) s = answer s .badArg := by
  unfold packetSend
  rw [parsePacketSend_of_size hlen]
  exact if_pos (Bool.eq_false_iff.mpr h)

variable (hok : (sendFields l dest port hi lo segment).inRange = true)
include hok

theorem packetSend_full {limit : FullLimit} (h : s.packetLimit l.toNat = some limit) :
    packetSend ([l, dest, port, hi, lo] ++ segment) s = answer s .full [limit.code] := by
  have hlimit : s.packetLimit (sendFields l dest port hi lo segment).lane = some limit := h
  unfold packetSend
  rw [parsePacketSend_of_size hlen]
  simp only [hok, hlimit]
  rfl

/-- PACKET.SEND below the limits: the pool decides (R110). -/
theorem packetSend_below (h : s.packetLimit l.toNat = none) :
    packetSend ([l, dest, port, hi, lo] ++ segment) s =
      let f := sendFields l dest port hi lo segment
      if s.grants (blocksFor f.declared) then
        answer (s.acceptPacket f) .ok (o16 s.nextPacket ++ o8 (s.newPacket f).state.code)
      else answer s .noSpace (o8 (blocksFor f.declared) ++ o16 s.free ++ o8 s.line.settings.receiveReserve) := by
  have hlimit : s.packetLimit (sendFields l dest port hi lo segment).lane = none := h
  unfold packetSend
  rw [parsePacketSend_of_size hlen]
  simp only [hok, hlimit]
  rfl

end

end

/-- Settles O47: the answers of PACKET.SEND in the order of its checks. -/
theorem packetSendQueuesPacket : Obligations.PacketSendQueuesPacket := by
  intro s tag l dest port hi lo segment hlen h c declared blocks ok depth reserve
  have hin : (sendFields l dest port hi lo segment).inRange = true ↔ ok := sendFields_inRange_iff
  have hlimit : s.afterTaking.packetLimit l.toNat = if 16 ≤ depth then some .queue
    else if 96 ≤ s.placesHeld then some .completions else none := packetLimit_eq s.afterTaking l.toNat
  refine ⟨fun hno => ?_, fun hok hdepth => ?_, fun hok hdepth hplaces => ?_, fun hok hdepth hplaces hfree => ?_,
    fun hok hdepth hplaces hfree => ?_⟩
  · exact gives_unchanged (work := packetSend _) (r := .badArg) rfl h (packetSend_bad hlen (mt hin.mp hno))
  · rw [if_pos hdepth] at hlimit
    exact gives_unchanged (work := packetSend _) (r := .full) rfl h (packetSend_full hlen (hin.mpr hok) hlimit)
  all_goals
    rw [if_neg (Nat.not_le_of_lt hdepth)] at hlimit
  · rw [if_pos hplaces] at hlimit
    exact gives_unchanged (work := packetSend _) (r := .full) rfl h (packetSend_full hlen (hin.mpr hok) hlimit)
  all_goals
    rw [if_neg (Nat.not_le_of_lt hplaces)] at hlimit
    have hbelow := packetSend_below (s := s.afterTaking) hlen (hin.mpr hok) hlimit
  · have hrefused : ¬s.afterTaking.grants (blocksFor declared) = true := mt decide_eq_true_iff.mp (Nat.not_le_of_lt hfree)
    exact gives_unchanged (work := packetSend _) (r := .noSpace) rfl h (hbelow.trans (if_neg hrefused))
  · intro whole
    have hgranted : s.afterTaking.grants (blocksFor declared) = true := decide_eq_true_iff.mpr hfree
    refine ⟨s.nextPacket, searchHandle_range _ _ _, nextPacket_fresh hplaces, nextHandle_first s.livePackets s.lastPacketHandle, ?_⟩
    have hcode : BitVec.ofNat 8 (if whole then PacketState.ready else .filling).code = if whole then 0x01#8 else 0x00#8 := by
      split <;> rfl
    rw [← hcode]
    exact gives_changed (work := packetSend _) (r := .ok) rfl h (hbelow.trans (if_pos hgranted)) rfl rfl

/-! ## The answer for a packet that is no longer queued -/

/-- The octet of a reason that may be absent (11.3, R189). -/
def reasonOctet : Option PacketReason → Octet
  | none => 0xFF#8
  | some .cancel => 0#8
  | some .laneReset => 1#8
  | some .underrun => 2#8
  | some .slotsLost => 3#8
  | some .lineStopped => 4#8

theorem o8?_reason (r : Option PacketReason) : o8? (r.map (·.code)) = [reasonOctet r] := by
  obtain _ | r := r
  · rfl
  · cases r <;> rfl

/-- The octet of a packet's state (11.3). -/
def stateOctet : PacketState → Octet
  | .filling => 0#8
  | .ready => 1#8
  | .sending => 2#8
  | .aborting => 3#8

theorem o8_packetState (x : PacketState) : o8 x.code = [stateOctet x] := by
  cases x <;> rfl

/-- The octet of a packet's outcome (11.3). -/
def outcomeOctet : PacketOutcome → Octet
  | .sent => 0#8
  | .cancelled => 1#8
  | .aborted => 2#8

theorem lateFinished_octets (d : PacketDone) : lateFinished d = [0x01#8, outcomeOctet d.outcome, reasonOctet d.reason] := by
  unfold lateFinished
  rw [o8?_reason]
  cases d.outcome <;> rfl

theorem lateAborting_octets (p : Packet) : lateAborting p = [0x00#8, 0xFF#8, reasonOctet p.abortReason] := by
  unfold lateAborting
  rw [o8?_reason]
  rfl

section
variable {s : State} {h : Nat}

theorem packetEntry_none (hno : ∀ d, .packet d ∈ s.rep.entries → d.handle ≠ h) : s.packetEntry h = none := by
  unfold State.packetEntry
  rw [List.findSome?_eq_none_iff]
  intro e he
  cases e with
  | packet d => exact if_neg (hno d he)
  | note n => rfl

theorem mem_of_packetEntry {d : PacketDone} (hd : s.packetEntry h = some d) : .packet d ∈ s.rep.entries ∧ d.handle = h := by
  obtain ⟨e, he, hsome⟩ := List.exists_of_findSome?_eq_some hd
  cases e with
  | packet x =>
    replace hsome : (if x.handle = h then some x else none) = some d := hsome
    by_cases hx : x.handle = h
    · rw [if_pos hx] at hsome
      cases hsome
      exact ⟨he, hx⟩
    · rw [if_neg hx] at hsome
      cases hsome
  | note n => cases hsome

/-- A waiting completion is the one that its handle finds, since live handles are distinct (R121). -/
theorem packetEntry_of_mem (hlive : LiveHandles s) {d : PacketDone} (hd : .packet d ∈ s.rep.entries) (hh : d.handle = h) :
    s.packetEntry h = some d := by
  have hnodup : (s.rep.entries.filterMap Completion.packet?).Nodup := by
    have hpackets := hlive.packets
    rw [livePackets_eq] at hpackets
    exact (List.nodup_append.mp hpackets).2.1
  cases hfound : s.packetEntry h with
  | none =>
    have hnot := List.findSome?_eq_none_iff.mp hfound _ hd
    exact absurd hnot (by simp [hh])
  | some x =>
    obtain ⟨hx, hxh⟩ := mem_of_packetEntry hfound
    have hsame := eq_of_nodup_filterMap hnodup hx hd (congrArg some hxh) (congrArg some hh)
    rw [Completion.packet.inj hsame]

theorem answerFinished_late (hlive : LiveHandles s) {d : PacketDone} (hd : .packet d ∈ s.rep.entries) (hh : d.handle = h) :
    s.answerFinished h = answer s .late [0x01#8, outcomeOctet d.outcome, reasonOctet d.reason] := by
  unfold State.answerFinished
  rw [packetEntry_of_mem hlive hd hh, ← lateFinished_octets]

theorem answerFinished_unknown (hno : ∀ d, .packet d ∈ s.rep.entries → d.handle ≠ h) : s.answerFinished h = answer s .unknown := by
  unfold State.answerFinished
  rw [packetEntry_none hno]

end

/-! ## PACKET.ADD -/

section
variable {s : State} {hi lo : Octet} {segment : List Octet}

theorem packetAdd_queued (hlen : segment.length ≤ 512) {l : Nat} {p : Packet} (hp : s.packet? (nat16 hi lo) = some (l, p)) :
    packetAdd (hi :: lo :: segment) s = s.addTo l p segment := by
  refine (if_neg (Nat.not_lt_of_le hlen)).trans ?_
  rw [hp]

theorem packetAdd_gone (hlen : segment.length ≤ 512) (hno : s.packet? (nat16 hi lo) = none) :
    packetAdd (hi :: lo :: segment) s = s.answerFinished (nat16 hi lo) := by
  refine (if_neg (Nat.not_lt_of_le hlen)).trans ?_
  rw [hno]

variable {l : Nat} {p : Packet}

theorem addTo_aborting (h : p.state = .aborting) :
    s.addTo l p segment = answer s .late [0x00#8, 0xFF#8, reasonOctet p.abortReason] := by
  rw [← lateAborting_octets]
  exact if_pos h

theorem addTo_whole (h : p.state = .ready ∨ (p.state = .sending ∧ p.body.length = p.declared)) :
    s.addTo l p segment = answer s .badState := by
  have hstate : p.state ≠ .aborting := by
    rintro habort
    rw [habort] at h
    obtain h | ⟨h, -⟩ := h <;> cases h
  exact (if_neg hstate).trans (if_pos h)

/-- PACKET.ADD to a packet that still lacks octets: the segment decides (R123). -/
theorem addTo_open (h : p.state = .filling ∨ (p.state = .sending ∧ p.body.length ≠ p.declared)) : s.addTo l p segment =
    if segment = [] ∨ p.declared < p.body.length + segment.length then answer s .badArg
    else answer (s.modPacket l p.handle fun q => q.add segment) .ok
      (o16 (p.add segment).body.length ++ o8 (p.add segment).state.code) := by
  refine (if_neg ?_).trans (if_neg ?_)
  · rintro habort
    rw [habort] at h
    obtain h | ⟨h, -⟩ := h <;> cases h
  · rintro (hready | ⟨hsending, hwhole⟩)
    · rw [hready] at h
      obtain h | ⟨h, -⟩ := h <;> cases h
    · rw [hsending] at h
      obtain h | ⟨-, h⟩ := h
      · cases h
      · exact h hwhole

end

/-- Settles O48: PACKET.ADD by the state of the packet that its handle names. -/
theorem packetAddAppendsSegment : Obligations.PacketAddAppendsSegment := by
  intro s tag hi lo segment hlen h hs hlive c handle reason
  have hreason : ∀ r, reasonOctet r = reason r := fun r => rfl
  refine ⟨fun l A p B hl hq hp => ?_, fun hno => ?_⟩
  · have hfound : s.afterTaking.packet? (nat16 hi lo) = some (l, p) := by
      rw [show nat16 hi lo = p.handle from hp.symm]
      exact packet?_of_split hs.afterTaking hlive.afterTaking hl hq
    have hwork := packetAdd_queued hlen hfound
    refine ⟨fun hstate => ?_, fun hstate => ?_, fun hstate => ⟨fun hbad => ?_, fun hsome hfits => ?_⟩⟩
    · rw [← hreason]
      exact gives_unchanged (work := packetAdd _) (r := .late) rfl h (hwork.trans (addTo_aborting hstate))
    · exact gives_unchanged (work := packetAdd _) (r := .badState) rfl h (hwork.trans (addTo_whole hstate))
    · exact gives_unchanged (work := packetAdd _) (r := .badArg) rfl h ((hwork.trans (addTo_open hstate)).trans (if_pos hbad))
    · intro n state
      have hgood : ¬(segment = [] ∨ p.declared < p.body.length + segment.length) :=
        not_or.mpr ⟨hsome, Nat.not_lt_of_le hfits⟩
      have hone := key_ne_of_nodup (hq ▸ queue_nodup hlive l)
      have hadd : p.add segment = { p with body := p.body ++ segment, state := state } := by
        simp only [Packet.add, List.length_append, n, state]
      have hoctets : o16 (p.add segment).body.length ++ o8 (p.add segment).state.code =
          [BitVec.ofNat 8 (n / 256), BitVec.ofNat 8 n, stateOctet state] := by
        have hlength : (p.body ++ segment).length = n := List.length_append
        rw [hadd, ← o8_packetState]
        exact congrArg (fun k => o16 k ++ o8 state.code) hlength
      have hgives := gives_changed (c := c) (work := packetAdd _) (r := .ok) rfl h
        ((hwork.trans (addTo_open hstate)).trans (if_neg hgood)) rfl (modPacket_of_split (s := s) hq hone fun q => q.add segment)
      rw [hoctets, hadd] at hgives
      exact hgives
  · have hgone : s.afterTaking.packet? (nat16 hi lo) = none := packet?_none hs.afterTaking hno
    have hwork := packetAdd_gone hlen hgone
    refine ⟨fun d hd hh => ?_, fun hnone => ?_⟩
    · rw [← hreason]
      exact gives_unchanged (work := packetAdd _) (r := .late) rfl h (hwork.trans (answerFinished_late hlive.afterTaking hd hh))
    · exact gives_unchanged (work := packetAdd _) (r := .unknown) rfl h (hwork.trans (answerFinished_unknown hnone))

/-! ## PACKET.CANCEL -/

section
variable {s : State} {hi lo : Octet}

theorem packetCancel_queued {l : Nat} {p : Packet} (hp : s.packet? (nat16 hi lo) = some (l, p)) :
    packetCancel [hi, lo] s = s.cancelPacket l p := by
  unfold packetCancel
  simp only [hp]

theorem packetCancel_gone (hno : s.packet? (nat16 hi lo) = none) : packetCancel [hi, lo] s = s.answerFinished (nat16 hi lo) := by
  unfold packetCancel
  simp only [hno]

variable {l : Nat} {p : Packet} {A B : List Packet}

/-- A packet that has not started finishes at once (R131). -/
theorem cancelPacket_waiting (h : p.state = .filling ∨ p.state = .ready) : s.cancelPacket l p =
    answer (s.finishPacket l p .cancelled (some .cancel)) .ok
      ((if p.state = .filling then 0x00#8 else 0x01#8) :: o16 p.body.length) := by
  unfold State.cancelPacket
  obtain h | h := h <;> rw [h] <;> rfl

theorem cancelPacket_sending (h : p.state = .sending) :
    s.cancelPacket l p = answer (s.cancelSending l p) .ok (0x02#8 :: o16 p.position) := by
  unfold State.cancelPacket
  rw [h]
  rfl

theorem cancelPacket_aborting (h : p.state = .aborting) :
    s.cancelPacket l p = answer s .late [0x00#8, 0xFF#8, reasonOctet p.abortReason] := by
  unfold State.cancelPacket
  rw [h, ← lateAborting_octets]

theorem cancelSending_of_split (hq : (s.lane l).queue = A ++ p :: B) (hone : ∀ q ∈ A ++ B, q.handle ≠ p.handle) :
    s.cancelSending l p = s.modLane l fun x => { x with engine := .aborting, queue := A ++ p.abort .cancel :: B } := by
  unfold State.cancelSending
  rw [modPacket_of_split hq hone, modLane_modLane]
  rfl

end

/-- Settles O49: PACKET.CANCEL by the state of the packet that its handle names. -/
theorem packetCancelStopsPacket : Obligations.PacketCancelStopsPacket := by
  intro s tag hi lo h hs hlive c handle reason
  have hreason : ∀ r, reasonOctet r = reason r := fun r => rfl
  refine ⟨fun l A p B hl hq hp => ?_, fun hno => ?_⟩
  · have hfound : s.afterTaking.packet? (nat16 hi lo) = some (l, p) := by
      rw [show nat16 hi lo = p.handle from hp.symm]
      exact packet?_of_split hs.afterTaking hlive.afterTaking hl hq
    have hwork := packetCancel_queued hfound
    have hone := key_ne_of_nodup (hq ▸ queue_nodup hlive l)
    refine ⟨fun hstate => ?_, fun hstate => ?_, fun hstate => ?_⟩
    · have hfinish := finishPacket_of_split (s := s.afterTaking) hq hone .cancelled (some .cancel)
      have hgives := gives_changed (c := c) (work := packetCancel _) (r := .ok) rfl h (hwork.trans (cancelPacket_waiting hstate))
        (by rw [hfinish]; rfl) (congrArg (fun x : State => { x with link := s.link }) hfinish)
      rw [← hp]
      exact hgives
    · have hcancel := cancelSending_of_split (s := s.afterTaking) hq hone
      exact gives_changed (c := c) (work := packetCancel _) (r := .ok) rfl h (hwork.trans (cancelPacket_sending hstate))
        (by rw [hcancel]; rfl) (congrArg (fun x : State => { x with link := s.link }) hcancel)
    · rw [← hreason]
      exact gives_unchanged (work := packetCancel _) (r := .late) rfl h (hwork.trans (cancelPacket_aborting hstate))
  · have hgone : s.afterTaking.packet? (nat16 hi lo) = none := packet?_none hs.afterTaking hno
    have hwork := packetCancel_gone hgone
    refine ⟨fun d hd hh => ?_, fun hnone => ?_⟩
    · rw [← hreason]
      exact gives_unchanged (work := packetCancel _) (r := .late) rfl h (hwork.trans (answerFinished_late hlive.afterTaking hd hh))
    · exact gives_unchanged (work := packetCancel _) (r := .unknown) rfl h (hwork.trans (answerFinished_unknown hnone))

end Sys2Proof.Machine
end

section
/-! SUPPORT. LANE.RESET (R113, R133, R136, R137); O50. -/

namespace Sys2Proof.Machine

section
variable {s : State} {l : Nat}

/-- What a packet of a lane that is reset hands over (R133, R137). -/
def Packet.resetCompletion (p : Packet) (l : Nat) (now : BitVec 16) : Completion :=
  .packet (p.done l (if p.started then .aborted else .cancelled) (some .laneReset) now)

/-- The lane without the packets of the handles given. -/
def Lane.without (x : Lane) (handles : List Nat) : Lane := { x with queue := x.queue.filter fun q => decide (q.handle ∉ handles) }

theorem Lane.without_nil (x : Lane) : x.without [] = x := by
  simp [Lane.without]

theorem Lane.without_cons (x : Lane) (p : Packet) (handles : List Nat) :
    Lane.without { x with queue := x.queue.filter fun q => q.handle != p.handle } handles = x.without (p.handle :: handles) := by
  unfold Lane.without
  simp only [List.filter_filter]
  congr 1
  refine List.filter_congr fun q _ => ?_
  by_cases hq : q.handle = p.handle <;> simp [hq]

theorem Lane.without_all (x : Lane) : x.without (x.queue.map (·.handle)) = { x with queue := [] } := by
  have hempty : (x.queue.filter fun q => decide (q.handle ∉ x.queue.map (·.handle))) = [] :=
    List.filter_eq_nil_iff.mpr fun q hq => by simpa using ⟨q, hq, rfl⟩
  unfold Lane.without
  rw [hempty]

theorem modLane_self (s : State) (l : Nat) : s.modLane l (fun x => x) = s := by
  have hsame : s.lanes.modify l (fun x => x) = s.lanes := List.modify_id l s.lanes
  unfold State.modLane
  rw [hsame]

/-- Packets that are reset leave the queue, return their blocks and place their completions in order (R133). -/
theorem foldl_resetPacket (s : State) (l : Nat) (ps : List Packet) : ps.foldl (State.resetPacket l) s =
    { s.modLane l (fun x => x.without (ps.map (·.handle))) with
      free := s.free + (ps.map fun p => blocksFor p.declared).sum
      rep := ps.foldl (fun rep p => rep.placed s.line.cycleCounter (p.resetCompletion l s.line.cycleCounter)) s.rep } := by
  induction ps generalizing s with
  | nil =>
    have hsame : s.modLane l (fun x => x.without []) = s := by
      simp only [Lane.without_nil, modLane_self]
    exact (congrArg (fun x : State => { x with free := s.free, rep := s.rep }) hsame).symm
  | cons p ps ih =>
    have hlanes : (s.modLane l fun x => { x with queue := x.queue.filter fun q => q.handle != p.handle }).modLane l
        (fun x => x.without (ps.map (·.handle))) = s.modLane l fun x => x.without ((p :: ps).map (·.handle)) := by
      rw [modLane_modLane]
      exact congrArg (s.modLane l) (funext fun x => x.without_cons p _)
    have hfree : s.free + blocksFor p.declared + (ps.map fun p => blocksFor p.declared).sum =
        s.free + ((p :: ps).map fun p => blocksFor p.declared).sum := by
      rw [List.map_cons, List.sum_cons, Nat.add_assoc]
    rw [List.foldl_cons, ih, State.resetPacket, finishPacket_eq, ← hlanes, ← hfree]
    rfl

/-- The lane after LANE.RESET, and what its packets gave. -/
theorem resetLane_eq (s : State) (l : Nat) : s.resetLane l =
    { s.modLane l (fun x => { x with queue := [], engine := .idle, activeSet := [], gapCount := 0 }) with
      free := s.free + ((s.lane l).queue.map fun p => blocksFor p.declared).sum
      rep := (s.lane l).queue.foldl
        (fun rep p => rep.placed s.line.cycleCounter (p.resetCompletion l s.line.cycleCounter)) s.rep } := by
  have hlanes : (s.modLane l fun x => x.without ((s.lane l).queue.map (·.handle))).modLane l (fun x => x.rest .idle) =
      s.modLane l fun x => { x with queue := [], engine := .idle, activeSet := [], gapCount := 0 } := by
    rw [modLane_modLane]
    refine modLane_of_eq ?_
    rw [Function.comp_apply, Lane.without_all]
    rfl
  rw [State.resetLane, foldl_resetPacket, ← hlanes]
  rfl

theorem laneReset_of_lane {l : Octet} (h : l.toNat < 4) : laneReset [l] s = answer (s.resetLane l.toNat) .ok
    (o8 ((s.lane l.toNat).queue.countP Packet.started) ++ o8 ((s.lane l.toNat).queue.countP fun p => !p.started)) :=
  if_neg (Nat.not_le_of_lt h)

theorem laneReset_of_no_lane {l : Octet} (h : 4 ≤ l.toNat) : laneReset [l] s = answer s .badArg := if_pos h

end

/-- Settles O50: every packet of the lane finishes, in the order of the queue. -/
theorem laneResetFinishesQueue : Obligations.LaneResetFinishesQueue := by
  intro s tag l h q started done
  have hstarted : Packet.started = started := funext Packet.started_eq
  have hdone : done = fun p : Packet => p.resetCompletion l.toNat s.line.cycleCounter := funext fun p => by
    unfold Packet.resetCompletion
    rw [hstarted]
    cases hp : p.state <;> simp [done, started, Packet.done, Packet.sentAtFinish, Packet.bodyOut, hp]
  refine ⟨fun hl => ?_, fun hl => ?_⟩
  · exact gives_unchanged (work := laneReset _) (r := .badArg) rfl h (laneReset_of_no_lane hl)
  · have hreset := resetLane_eq s.afterTaking l.toNat
    have hwork := laneReset_of_lane (s := s.afterTaking) hl
    rw [hstarted] at hwork
    have hgives := gives_changed (c := .laneReset tag [l]) (work := laneReset _) (r := .ok) rfl h hwork
      (by rw [hreset]; rfl) (congrArg (fun x : State => { x with link := s.link }) hreset)
    rw [hdone]
    exact hgives

end Sys2Proof.Machine
end

section
/-! SUPPORT. The turn of a down slot sampled to a lane (R124, R126 to R130, R136, R137); O51. -/

namespace Sys2Proof.Machine

section
variable {s : State} {l slot : Nat}

theorem exec_laneTurn (h : s.downOwner slot = some (.lane l)) :
    exec (.laneDownSlotTurn slot) s = event ((s.laneTurn l slot).2.drive slot (s.laneTurn l slot).1) := by
  show execLaneDownSlotTurn slot s = _
  unfold execLaneDownSlotTurn
  simp only [h]

theorem exec_laneTurn_skip (h : ∀ l, s.downOwner slot ≠ some (.lane l)) : exec (.laneDownSlotTurn slot) s = .next s := by
  show execLaneDownSlotTurn slot s = _
  unfold execLaneDownSlotTurn
  split
  next l hl => exact absurd hl (h l)
  all_goals rfl

theorem gives_turn (h : s.downOwner slot = some (.lane l)) {o : Octet} {v u : State} (ht : s.laneTurn l slot = (o, v))
    (hu : v.drive slot o = u) : Gives (.laneDownSlotTurn slot) s u :=
  gives_of_event _ _ (exec_laneTurn h) (ht ▸ hu)

/-- The lane put back as it is. -/
theorem modLane_same (s : State) (l : Nat) : s.modLane l (fun _ => s.lane l) = s :=
  (modLane_of_eq (f := fun _ => s.lane l) (g := fun x => x) rfl).trans (modLane_self s l)

theorem lane_withHead {x : Lane} {p p' : Packet} {rest : List Packet} (h : x.queue = p :: rest) :
    x.withHead p' = { x with queue := p' :: rest } := by
  rw [Lane.withHead, h, List.tail_cons]

variable {p : Packet} {rest : List Packet} {o : Octet}

/-! ## What an octet of the head packet leaves -/

theorem sendOctet_checked (hq : (s.lane l).queue = p :: rest) (q : Packet) : s.sendOctet l q o true =
    (o, s.modLane l fun _ =>
      { s.lane l with queue := { q with position := q.position + 1 } :: rest, runningCheck := crcOctet (s.lane l).runningCheck o }) := by
  refine Prod.ext rfl (modLane_of_eq ?_)
  rw [lane_withHead hq]
  rfl

theorem sendOctet_unchecked (hq : (s.lane l).queue = p :: rest) (q : Packet) : s.sendOctet l q o false =
    (o, s.modLane l fun _ => { s.lane l with queue := { q with position := q.position + 1 } :: rest }) := by
  refine Prod.ext rfl (modLane_of_eq ?_)
  rw [lane_withHead hq]
  rfl

/-- The last octet: the packet finishes, and the engine goes to GAP (R127, R130). -/
theorem endPacket_of_head (hq : (s.lane l).queue = p :: rest) (hone : ∀ q ∈ rest, q.handle ≠ p.handle) (outcome : PacketOutcome)
    (reason : Option PacketReason) : s.endPacket l p o outcome reason =
      (o, { s.modLane l (fun _ => { s.lane l with engine := .gap, activeSet := [], gapCount := 0, queue := rest }) with
        free := s.free + blocksFor p.declared
        rep := s.rep.placed s.line.cycleCounter
          (.packet (Packet.done { p with position := p.position + 1 } l outcome reason s.line.cycleCounter)) }) := by
  have hlane : (s.modLane l fun x => { x with queue := x.queue.filter fun q => q.handle != p.handle }).modLane l (fun y => y.rest .gap) =
      s.modLane l fun _ => { s.lane l with engine := .gap, activeSet := [], gapCount := 0, queue := rest } := by
    have hleft : (s.lane l).queue.filter (fun q => q.handle != p.handle) = rest := hq ▸ filter_key_of_split (A := []) hone
    rw [modLane_modLane]
    refine modLane_of_eq ?_
    rw [Function.comp_apply, hleft]
    rfl
  rw [← hlane]
  refine Prod.ext rfl ?_
  rw [State.endPacket, finishPacket_eq]
  rfl

/-! ## The turn by the engine's state -/

theorem laneTurn_idle (h : (s.lane l).engine = .idle) : s.laneTurn l slot = (idleOctet, s) := by
  unfold State.laneTurn
  simp only [h]

theorem laneTurn_gap (h : (s.lane l).engine = .gap) :
    s.laneTurn l slot = (idleOctet, s.modLane l fun y => { y with gapCount := min 2 (y.gapCount + 1) }) := by
  unfold State.laneTurn
  simp only [h]

/-- A slot outside the active set carries FFh (R124). -/
theorem laneTurn_outside (h : (s.lane l).engine = .sending ∨ (s.lane l).engine = .aborting) (hout : slot ∉ (s.lane l).activeSet) :
    s.laneTurn l slot = (idleOctet, s) := by
  unfold State.laneTurn
  obtain h | h := h <;> cases hq : (s.lane l).queue <;> simp [h, hq, hout]

section
variable (hin : slot ∈ (s.lane l).activeSet) (hq : (s.lane l).queue = p :: rest)
include hin hq

theorem laneTurn_sending (h : (s.lane l).engine = .sending) : s.laneTurn l slot = s.sendTurn l p := by
  unfold State.laneTurn
  simp only [h, hq, if_pos hin]

theorem laneTurn_aborting (h : (s.lane l).engine = .aborting) : s.laneTurn l slot = s.abortTurn l p := by
  unfold State.laneTurn
  simp only [h, hq, if_pos hin]

end

/-! ## The turn by the head's position (R126, R130) -/

theorem header_position {i : Nat} (h : p.header[i]? = some o) : i < 4 := (List.getElem?_eq_some_iff.mp h).1

theorem sendTurn_header (h : p.header[p.position]? = some o) : s.sendTurn l p = s.sendOctet l p o true := by
  unfold State.sendTurn
  rw [if_pos (header_position h), h]
  rfl

theorem abortTurn_header (h : p.header[p.position]? = some o) : s.abortTurn l p = s.sendOctet l p o true := by
  unfold State.abortTurn
  rw [if_pos (header_position h), h]
  rfl

section
variable (hfrom : 4 ≤ p.position) (hto : p.position < p.declared + 4)
include hfrom hto

theorem abortTurn_body : s.abortTurn l p = s.sendOctet l p idleOctet true :=
  (if_neg (Nat.not_lt_of_le hfrom)).trans (if_pos hto)

theorem sendTurn_body (h : p.body[p.position - 4]? = some o) : s.sendTurn l p = s.sendOctet l p o true := by
  unfold State.sendTurn
  rw [if_neg (Nat.not_lt_of_le hfrom), if_pos hto]
  simp only [h]

/-- An underrun: the packet is aborted and its first fill octet goes out (R129). -/
theorem sendTurn_underrun (h : p.body[p.position - 4]? = none) : s.sendTurn l p =
    (s.modLane l fun y => { y.withHead (p.abort .underrun) with engine := .aborting }).sendOctet l (p.abort .underrun) idleOctet true := by
  unfold State.sendTurn
  rw [if_neg (Nat.not_lt_of_le hfrom), if_pos hto]
  simp only [h]
  exact abortTurn_body (p := p.abort .underrun) hfrom hto

end

theorem sendTurn_check (h : p.position = p.declared + 4) :
    s.sendTurn l p = s.sendOctet l p (hi8 (s.lane l).runningCheck) false := by
  unfold State.sendTurn
  rw [if_neg (by omega), if_neg (by omega), if_pos h]

theorem abortTurn_check (h : p.position = p.declared + 4) :
    s.abortTurn l p = s.sendOctet l p (~~~hi8 (s.lane l).runningCheck) false := by
  unfold State.abortTurn
  rw [if_neg (by omega), if_neg (by omega), if_pos h]

theorem sendTurn_last (h : p.position = p.declared + 5) :
    s.sendTurn l p = s.endPacket l p (lo8 (s.lane l).runningCheck) .sent none := by
  unfold State.sendTurn
  rw [if_neg (by omega), if_neg (by omega), if_neg (by omega)]

theorem abortTurn_last (h : p.position = p.declared + 5) :
    s.abortTurn l p = s.endPacket l p (~~~lo8 (s.lane l).runningCheck) .aborted p.abortReason := by
  unfold State.abortTurn
  rw [if_neg (by omega), if_neg (by omega), if_neg (by omega)]

/-- The underrun's turn on the lane. -/
theorem sendOctet_underrun (hq : (s.lane l).queue = p :: rest) (p' : Packet) :
    (s.modLane l fun y => { y.withHead p' with engine := .aborting }).sendOctet l p' o true =
      (o, s.modLane l fun _ =>
        { s.lane l with
          engine := .aborting, queue := { p' with position := p'.position + 1 } :: rest
          runningCheck := crcOctet (s.lane l).runningCheck o }) := by
  refine Prod.ext rfl ?_
  refine (modLane_modLane s l _ _).trans (modLane_of_eq ?_)
  rw [Function.comp_apply, lane_withHead hq]
  rfl

end

/-- Settles O51: the turn of a lane's slot by its engine, its active set and the head's position. -/
theorem laneTurnSendsOctet : Obligations.LaneTurnSendsOctet := by
  intro s slot c running sampled
  refine ⟨fun hno => ?_, fun l hrun hown => ?_⟩
  · exact exec_laneTurn_skip fun l hl => hno ⟨(downOwner_eq_some_iff.mp hl).1, l, (downOwner_eq_some_iff.mp hl).2⟩
  intro x drives
  have hl : s.downOwner slot = some (.lane l) := downOwner_eq_some_iff.mpr ⟨hrun, hown⟩
  have hidle : s.drive slot 0xFF#8 = drives 0xFF#8 x :=
    congrArg (fun v : State => v.drive slot 0xFF#8) (modLane_same s l).symm
  refine ⟨fun he => ?_, fun he => ?_, fun he hout => ?_, fun p rest hbusy hin hq => ?_⟩
  · exact gives_turn hl (laneTurn_idle he) hidle
  · refine gives_turn hl (laneTurn_gap he) ?_
    exact congrArg (fun v : State => v.drive slot 0xFF#8)
      (modLane_of_eq (g := fun _ => { s.lane l with gapCount := min 2 ((s.lane l).gapCount + 1) }) rfl)
  · exact gives_turn hl (laneTurn_outside he hout) hidle
  intro header moved checked finishes
  have hsend : x.engine = .sending → s.laneTurn l slot = s.sendTurn l p := laneTurn_sending hin hq
  have habort : x.engine = .aborting → s.laneTurn l slot = s.abortTurn l p := laneTurn_aborting hin hq
  have hcheck := fun (o : Octet) => sendOctet_checked (o := o) hq p
  refine ⟨fun o ho => ?_, fun he hfrom hto => ⟨fun o ho => ?_, fun hnone => ?_⟩, fun he hfrom hto => ?_, fun he hpos => ?_,
    fun he hpos => ?_, fun he hpos hone => ?_, fun he hstate hpos hone => ?_⟩
  · obtain he | he := hbusy
    · exact gives_turn hl ((hsend he).trans ((sendTurn_header ho).trans (hcheck o))) rfl
    · exact gives_turn hl ((habort he).trans ((abortTurn_header ho).trans (hcheck o))) rfl
  · have hturn := (hsend he).trans ((sendTurn_body hfrom hto ho).trans (hcheck o))
    refine gives_turn hl hturn ?_
    rw [← he]
    rfl
  · exact gives_turn hl ((hsend he).trans ((sendTurn_underrun hfrom hto hnone).trans (sendOctet_underrun hq _))) rfl
  · refine gives_turn hl ((habort he).trans ((abortTurn_body hfrom hto).trans (hcheck idleOctet))) ?_
    rw [← he]
    rfl
  · exact gives_turn hl ((hsend he).trans ((sendTurn_check hpos).trans (sendOctet_unchecked hq p))) rfl
  · exact gives_turn hl ((habort he).trans ((abortTurn_check hpos).trans (sendOctet_unchecked hq p))) rfl
  · exact gives_turn hl ((hsend he).trans ((sendTurn_last hpos).trans (endPacket_of_head hq hone .sent none))) rfl
  · have hsent : p.bodySent = Packet.sentAtFinish { p with position := p.position + 1 } := by
      unfold Packet.sentAtFinish
      rw [hstate]
    rw [hsent]
    exact gives_turn hl ((habort he).trans ((abortTurn_last hpos).trans (endPacket_of_head hq hone .aborted p.abortReason))) rfl

end Sys2Proof.Machine
end

section
/-! SUPPORT. CIRCUIT.CLOSE (R70, R72, R78, R82, R84, R86, R87); O38. -/

namespace Sys2Proof.Machine

section
variable {s : State} {n : Nat} {c : Circuit}

/-- The state with the Reclaim List entries of a circuit gone: the first thing that its end does (R70, R84). -/
def State.closing (s : State) (n : Nat) : State :=
  { s with slots := { s.slots with reclaim := s.slots.reclaim.filter fun e => decide (e.owner ≠ .circuit n) } }

theorem closeCircuit_eq (s : State) (n : Nat) (c : Circuit) : s.closeCircuit n c =
    ((s.closing n).freeSlots (.circuit n) (claimSlots c.down c.up)).setCircuit n none := by
  have hdrop : s.dropReclaim (fun e => decide (e.owner = .circuit n)) = s.closing n := by
    unfold State.dropReclaim State.closing
    simp only [decide_not]
  unfold State.closeCircuit State.removeCircuit
  rw [hdrop]

theorem mem_closing_reclaim {e : ReclaimEntry} :
    e ∈ (s.closing n).slots.reclaim ↔ e ∈ s.slots.reclaim ∧ e.owner ≠ .circuit n :=
  List.mem_filter.trans (and_congr_right' decide_eq_true_iff)

/-- The entries that still wait for a slot when the circuit ends (R72). -/
theorem closing_waitingAt (d : Dir) (x : Nat) : (s.closing n).waitingAt (d, x) =
    s.slots.reclaim.filter fun e => decide (e.owner ≠ .circuit n ∧ e.dir = d ∧ e.slot = x) := by
  refine List.filter_filter.trans (List.filter_congr fun e _ => ?_)
  rw [← Bool.decide_and]
  exact decide_eq_decide.mpr and_comm

theorem closeCircuit_mapEntry (d : Dir) (x : Nat) : (s.closeCircuit n c).mapEntry d x =
    ((s.closing n).freeSlots (.circuit n) (claimSlots c.down c.up)).mapEntry d x := by
  rw [closeCircuit_eq]
  rfl

theorem closeCircuit_reclaim : (s.closeCircuit n c).slots.reclaim =
    ((s.closing n).freeSlots (.circuit n) (claimSlots c.down c.up)).slots.reclaim := by
  rw [closeCircuit_eq]
  rfl

theorem closeCircuit_circuit_self (hn : n < s.circuits.length) : (s.closeCircuit n c).circuit n = none := by
  rw [closeCircuit_eq]
  refine State.circuit_setCircuit_self _ n none ?_
  rw [freeSlots_circuits_length]
  exact hn

theorem closeCircuit_keeps_circuit {m : Nat} {k : Circuit} (hm : m ≠ n) (hk : s.circuit m = some k) (hd : k.state ≠ .displaced) :
    (s.closeCircuit n c).circuit m = some k := by
  rw [closeCircuit_eq, State.circuit_setCircuit_ne _ n m none hm]
  exact freeSlots_keeps_circuit _ (s.closing n) _ m k hk hd

/-- The slots of a circuit that ends, let go in turn (R84). -/
theorem closeCircuit_through (hs : s.slots.down.length = 43 ∧ s.slots.up.length = 43) (n : Nat) (c : Circuit) (L : HostLink) :
    ∃ (letGo : List SlotRef) (v : State), InOrder letGo ∧ (∀ d x, (d, x) ∈ letGo ↔ x ∈ c.slots d ∧ s.owns (.circuit n) d x)
      ∧ Through (LetsGo (.circuit n)) letGo ((s.closing n).onLink L) v
      ∧ (s.closeCircuit n c).onLink L = { v with circuits := v.circuits.set n none } := by
  obtain ⟨letGo, horder, hmem, hthrough⟩ := circuitSlots_through n c (s.closing n) hs
  refine ⟨letGo, _, horder, hmem, hthrough.onLink L fun _ _ _ h => h.onLink L, ?_⟩
  rw [closeCircuit_eq]
  rfl

/-- The map after a circuit's end (R72, R84). -/
theorem closeCircuit_map (hs : s.slots.down.length = 43 ∧ s.slots.up.length = 43) {d : Dir} {x : Nat} (hx : 5 ≤ x ∧ x ≤ 47) :
    let own := s.owns (.circuit n) d x ∧ x ∈ c.slots d
    let waiting := s.slots.reclaim.filter fun e => decide (e.owner ≠ .circuit n ∧ e.dir = d ∧ e.slot = x)
    (¬own → (s.closeCircuit n c).mapEntry d x = s.mapEntry d x)
      ∧ (own → (s.closeCircuit n c).mapEntry d x =
        (bestEntry waiting).map fun e => { owner := e.owner, prec := e.prec }) := by
  intro own waiting
  obtain ⟨hstays, hfreed, -, -, -⟩ := freeSlots_spec (.circuit n) (claimSlots c.down c.up) (nodup_claimSlots _ _)
    (in_claimSlots _ _) (s.closing n) hs
  have hlisted : (d, x) ∈ claimSlots c.down c.up ↔ x ∈ c.slots d := by
    rw [mem_claimSlots, and_iff_right hx]
    cases d <;> rfl
  have hwaiting : (s.closing n).waitingAt (d, x) = waiting := closing_waitingAt d x
  rw [closeCircuit_mapEntry]
  refine ⟨fun hno => hstays d x ?_, fun ⟨howns, hin⟩ => ?_⟩
  · by_cases hin : x ∈ c.slots d
    · exact .inr fun howns => hno ⟨howns, hin⟩
    · exact .inl (mt hlisted.mp hin)
  · rw [← hwaiting]
    exact hfreed d x (hlisted.mpr hin) howns

theorem circuitClose_range {o : Octet} (h : 12 ≤ o.toNat) : circuitClose [o] s = answer s .badArg := if_pos h

theorem circuitClose_unknown {o : Octet} (h : o.toNat < 12) (hc : s.circuit o.toNat = none) :
    circuitClose [o] s = answer s .unknown := by
  refine (if_neg (Nat.not_le_of_lt h)).trans ?_
  rw [hc]

theorem circuitClose_open {o : Octet} (h : o.toNat < 12) (hc : s.circuit o.toNat = some c) :
    circuitClose [o] s = answer (s.closeCircuit o.toNat c) .ok := by
  refine (if_neg (Nat.not_le_of_lt h)).trans ?_
  rw [hc]

end

/-- Settles O38: the two refusals of CIRCUIT.CLOSE, and what a circuit's end does to the slots and to everything else. -/
theorem circuitCloseFreesSlots : Obligations.CircuitCloseFreesSlots := by
  intro s tag n h hs
  refine ⟨fun hn => ?_, fun hn hc => ?_, fun c hn hc => ?_⟩
  · exact gives_unchanged (work := circuitClose _) (r := .badArg) rfl h (circuitClose_range hn)
  · exact gives_unchanged (work := circuitClose _) (r := .unknown) rfl h (circuitClose_unknown hn hc)
  have hlen : s.afterTaking.slots.down.length = 43 ∧ s.afterTaking.slots.up.length = 43 := ⟨hs.down, hs.up⟩
  have hframe := State.closeCircuit_frame (s := s.afterTaking) n.toNat c
  obtain ⟨hline, hpoll, hnotes, hlanes, hhandles, hwindow, hrx, hmail, hfree, hlink, hpin, hchoices, hpending, hsent⟩ := hframe
  obtain ⟨-, -, hsub, hwon, -⟩ := freeSlots_spec (.circuit n.toNat) (claimSlots c.down c.up) (nodup_claimSlots _ _)
    (in_claimSlots _ _) (s.afterTaking.closing n.toNat) hlen
  refine ⟨(s.afterTaking.closeCircuit n.toNat c).onLink s.link,
    gives_changed (work := circuitClose _) (r := .ok) rfl h (circuitClose_open hn hc) hlink rfl,
    closeCircuit_circuit_self (s := s.afterTaking) (hs.circuits ▸ hn), ?_, fun e he => ?_, fun d x hlow hhigh => ?_,
    fun e he hother hgone => ?_, fun m k hm hk hstate => closeCircuit_keeps_circuit (s := s.afterTaking) hm hk hstate,
    hlanes, hline, hpoll, hnotes, hwindow, hrx, hmail, hfree, ?_⟩
  · obtain ⟨letGo, v, horder, hmem, hthrough, hv⟩ := closeCircuit_through hlen n.toNat c s.link
    exact ⟨letGo, v, horder, hmem, hthrough, hv⟩
  · exact mem_closing_reclaim.mp (hsub e (closeCircuit_reclaim ▸ he))
  · intro own waiting
    obtain ⟨hstays, hfreed⟩ := closeCircuit_map (n := n.toNat) (c := c) (d := d) hlen ⟨hlow, hhigh⟩
    have hown : own ↔ s.afterTaking.owns (.circuit n.toNat) d x ∧ x ∈ c.slots d := by
      cases d <;> rfl
    refine ⟨fun hno => hstays (mt hown.mpr hno), fun ho hnone => (hfreed (hown.mp ho)).trans ?_,
      fun e ho hwins => (hfreed (hown.mp ho)).trans ?_⟩
    · exact congrArg (fun l => (bestEntry l).map _) hnone
    · exact congrArg (Option.map _) (bestEntry_of_wins hwins)
  · refine (closeCircuit_mapEntry (s := s.afterTaking) e.dir e.slot).trans (hwon e (mem_closing_reclaim.mpr ⟨he, hother⟩) ?_)
    exact fun hstays => hgone (closeCircuit_reclaim (s := s.afterTaking) (n := n.toNat) (c := c) ▸ hstays)
  · exact ⟨rfl, hpin, hhandles, hsent, hchoices, hpending⟩

end Sys2Proof.Machine
end

section
/-! SUPPORT. CIRCUIT.OPEN (R67 to R69, R77 to R80, R82, R85 to R87, R190), and refusals of a claim; O37. -/

namespace Sys2Proof.Machine

/-! ## Refusals of a claim (R67) -/

section
variable {s : State} {o : Owner} {prec : Nat} {down up : List Nat}

/-- The octet of an owner (11.3). -/
def ownerOctet : Owner → Octet
  | .lane k => BitVec.ofNat 8 (0x10 + k)
  | .circuit k => BitVec.ofNat 8 (0x20 + k)

theorem refusedFields_octets (d : Dir) (x : Nat) (e : MapEntry) : refusedFields ((d, x), e) =
    [if d = .down then 0x00#8 else 0x01#8, BitVec.ofNat 8 x, ownerOctet e.owner, BitVec.ofNat 8 e.prec] := by
  obtain ⟨owner, p⟩ := e
  cases d <;> cases owner <;> rfl

/-- The first refusing slot of a claim: no lower slot of its direction refuses, and for an up slot no down slot. -/
theorem firstRefusal_of_least {d : Dir} {x : Nat} {e : MapEntry} (hin : (d, x) ∈ claimSlots down up)
    (hrefuses : s.refuses o prec (d, x) = some e)
    (hbelow : ∀ y, y < x → (d, y) ∈ claimSlots down up → s.refuses o prec (d, y) = none)
    (hdown : d = .up → ∀ y, (.down, y) ∈ claimSlots down up → s.refuses o prec (.down, y) = none) :
    s.firstRefusal o prec (claimSlots down up) = some ((d, x), e) := by
  obtain ⟨A, B, hsplit, hbefore⟩ := split_claimSlots down up d x hin
  rw [hsplit]
  refine firstRefusal_some s o prec A (d, x) B e (fun r hr => ?_) hrefuses
  have hmem : r ∈ claimSlots down up := hsplit ▸ List.mem_append_left _ hr
  obtain ⟨rd, ry⟩ := r
  obtain ⟨hd, hy⟩ | ⟨hd, hy⟩ := hbefore _ hr
  · dsimp only at hd hy
    subst hd
    exact hbelow ry hy hmem
  · dsimp only at hy
    subst hy
    exact hdown hd ry hmem

/-- A claim of slots without an owner writes the map and nothing else (R68). -/
theorem applyClaim_unowned (hs : s.slots.down.length = 43 ∧ s.slots.up.length = 43)
    (hfree : ∀ d x, (d, x) ∈ claimSlots down up → s.mapEntry d x = none) :
    let u := s.applyClaim o prec (claimSlots down up)
    (u.lanes = s.lanes ∧ u.circuits = s.circuits ∧ u.window = s.window ∧ u.rx = s.rx ∧ u.free = s.free ∧ u.rep = s.rep
        ∧ u.slots.reclaim = s.slots.reclaim)
      ∧ ∀ d x, (d, x) ∉ claimSlots down up → u.mapEntry d x = s.mapEntry d x := by
  have happlied := applyClaim_of_unowned s o prec (claimSlots down up) fun r hr => hfree r.1 r.2 hr
  have hframe := foldl_setEntry_frame o prec (claimSlots down up) s
  obtain ⟨hmap, -⟩ := setEntries_spec o prec (claimSlots down up) (in_claimSlots _ _) s hs
  dsimp only at hframe hmap ⊢
  rw [happlied]
  exact ⟨hframe, fun d x hout => (hmap d x).trans (if_neg hout)⟩

end

/-! ## The fields of CIRCUIT.OPEN -/

section
variable {s : State} {source prec : Octet} {up down : List Octet}

/-- The fields of a CIRCUIT.OPEN of a width that a circuit can have. -/
def openFields (source prec : Octet) (up down : List Octet) : CircuitOpenFields where
  source := source.toNat
  width := up.length
  prec := prec.toNat
  up := up.map (·.toNat)
  down := down.map (·.toNat)

theorem parseCircuitOpen_cons (source width prec : Octet) (lists : List Octet) :
    parseCircuitOpen (source :: width :: prec :: lists) =
      if (1 ≤ width.toNat ∧ width.toNat ≤ 4) ∧ lists.length = 2 * width.toNat then
        some
          { source := source.toNat, width := width.toNat, prec := prec.toNat
            up := (lists.take width.toNat).map (·.toNat), down := (lists.drop width.toNat).map (·.toNat) }
      else none := rfl

theorem parseCircuitOpen_of_lists (hw : 1 ≤ up.length ∧ up.length ≤ 4) (hd : down.length = up.length) :
    parseCircuitOpen ([source, BitVec.ofNat 8 up.length, prec] ++ up ++ down) = some (openFields source prec up down) := by
  have hwidth : (BitVec.ofNat 8 up.length).toNat = up.length := by
    rw [BitVec.toNat_ofNat]
    exact Nat.mod_eq_of_lt (by omega)
  have hlength : (up ++ down).length = 2 * up.length := by
    rw [List.length_append, hd, Nat.two_mul]
  refine (parseCircuitOpen_cons source (BitVec.ofNat 8 up.length) prec (up ++ down)).trans ?_
  rw [hwidth, if_pos ⟨hw, hlength⟩, List.take_left, List.drop_left]
  rfl

theorem parseCircuitOpen_of_width {width : Octet} {lists : List Octet} (h : ¬(1 ≤ width.toNat ∧ width.toNat ≤ 4)) :
    parseCircuitOpen (source :: width :: prec :: lists) = none := if_neg fun hboth => h hboth.1

theorem openFields_inRange_iff : (openFields source prec up down).inRange = true ↔
    (1 ≤ source.toNat ∧ source.toNat ≤ 30) ∧ (1 ≤ prec.toNat ∧ prec.toNat ≤ 7)
      ∧ ((down.map (·.toNat)).Nodup ∧ ∀ x ∈ down.map (·.toNat), 5 ≤ x ∧ x ≤ 47)
      ∧ (up.map (·.toNat)).Nodup ∧ ∀ x ∈ up.map (·.toNat), 5 ≤ x ∧ x ≤ 47 := by
  unfold CircuitOpenFields.inRange
  rw [Bool.and_eq_true, Bool.and_eq_true, Bool.and_eq_true, isStation_true_iff, slotListOk_iff, slotListOk_iff, isPrec,
    decide_eq_true_iff]
  constructor
  · exact fun ⟨⟨⟨hsource, hup⟩, hdown⟩, hprec⟩ => ⟨hsource, hprec, hdown, hup⟩
  · exact fun ⟨hsource, hprec, hdown, hup⟩ => ⟨⟨⟨hsource, hup⟩, hdown⟩, hprec⟩

theorem freeCircuit_eq_none (h : ∀ n, n < 12 → s.circuit n ≠ none) : s.freeCircuit = none := by
  refine List.find?_eq_none.mpr fun n hn => ?_
  simpa [Option.isNone_iff_eq_none] using h n (List.mem_range.mp hn)

/-- The lowest free circuit number (R80). -/
theorem freeCircuit_eq_some {n : Nat} (hn : n < 12) (hfree : s.circuit n = none) (hlow : ∀ m, m < n → s.circuit m ≠ none) :
    s.freeCircuit = some n := by
  refine List.find?_range_eq_some.mpr ⟨Option.isNone_iff_eq_none.mpr hfree, List.mem_range.mpr hn, fun m hm => ?_⟩
  simpa [Option.isSome_iff_ne_none] using hlow m hm

/-! ## The answers of CIRCUIT.OPEN (R80) -/

section
variable {body : List Octet} {f : CircuitOpenFields}

theorem circuitOpen_unparsed (hp : parseCircuitOpen body = none) : circuitOpen body s = answer s .badArg := by
  unfold circuitOpen
  rw [hp]

variable (hp : parseCircuitOpen body = some f)
include hp

theorem circuitOpen_bad (hf : ¬f.inRange = true) : circuitOpen body s = answer s .badArg := by
  unfold circuitOpen
  simp only [hp, Bool.eq_false_iff.mpr hf, if_true]

variable (hf : f.inRange = true)
include hf

theorem circuitOpen_noSpace (hn : s.freeCircuit = none) : circuitOpen body s = answer s .noSpace := by
  unfold circuitOpen
  simp only [hp, hf, hn, reduceCtorEq, if_false]

variable {n : Nat} (hn : s.freeCircuit = some n)
include hn

theorem circuitOpen_badState (hst : (s.station f.source).state = .free) : circuitOpen body s = answer s .badState := by
  unfold circuitOpen
  simp only [hp, hf, hn, hst, reduceCtorEq, if_false, if_true]

variable (hst : (s.station f.source).state ≠ .free)
include hst

theorem circuitOpen_refused {x : SlotRef × MapEntry}
    (hx : s.firstRefusal (.circuit n) f.prec (claimSlots f.down f.up) = some x) :
    circuitOpen body s = answer s .refused (refusedFields x) := by
  unfold circuitOpen
  simp only [hp, hf, hn, hst, hx, reduceCtorEq, if_false]

theorem circuitOpen_taken (hx : s.firstRefusal (.circuit n) f.prec (claimSlots f.down f.up) = none) :
    circuitOpen body s = answer (s.openCircuit n f) .ok (o8 n ++ o8 (s.newCircuit f).state.code) := by
  unfold circuitOpen
  simp only [hp, hf, hn, hst, hx, reduceCtorEq, if_false]

end

/-! ## The circuit that opens -/

theorem newCircuit_state (s : State) (f : CircuitOpenFields) :
    (s.newCircuit f).state = if (s.station f.source).state = .online then .live else .muted := by
  unfold State.newCircuit State.isOnline
  simp only [decide_eq_true_eq]

theorem newCircuit_not_displaced (s : State) (f : CircuitOpenFields) : (s.newCircuit f).state ≠ .displaced := by
  rw [newCircuit_state]
  split <;> simp

theorem o8_newCircuit_state (s : State) (f : CircuitOpenFields) :
    o8 (s.newCircuit f).state.code = [if (s.newCircuit f).state = .live then 0x00#8 else 0x01#8] := by
  rw [newCircuit_state]
  split <;> rfl

theorem openCircuit_circuit_self (hs : Shape s) {n : Nat} (hn : n < 12) (f : CircuitOpenFields) :
    (s.openCircuit n f).circuit n = some (s.newCircuit f) := by
  obtain ⟨-, -, -, -, -, -, hown⟩ := applyClaim_spec (.circuit n) f.prec (claimSlots f.down f.up) (in_claimSlots _ _)
    (s.setCircuit n (some (s.newCircuit f))) ⟨hs.down, hs.up⟩
  exact hown n _ rfl (State.circuit_setCircuit_self s n _ (hs.circuits ▸ hn)) (newCircuit_not_displaced s f)

theorem openCircuit_map (hs : Shape s) (n : Nat) (f : CircuitOpenFields) {d : Dir} {x : Nat} (hx : (d, x) ∈ claimSlots f.down f.up) :
    (s.openCircuit n f).mapEntry d x = some { owner := .circuit n, prec := f.prec } := by
  obtain ⟨hmap, -⟩ := applyClaim_spec (.circuit n) f.prec (claimSlots f.down f.up) (in_claimSlots _ _)
    (s.setCircuit n (some (s.newCircuit f))) ⟨hs.down, hs.up⟩
  exact hmap d x hx

end

/-- Settles O37: the answers of CIRCUIT.OPEN in their order, and what a circuit that opens does. -/
theorem circuitOpenClaimsSlots : Obligations.CircuitOpenClaimsSlots := by
  refine ⟨fun s tag source width prec lists hwidth h => ?_, fun s tag source prec up down hw hd h hs => ?_⟩
  · exact gives_unchanged (work := circuitOpen _) (r := .badArg) rfl h (circuitOpen_unparsed (parseCircuitOpen_of_width hwidth))
  intro c listed ok
  have hp := parseCircuitOpen_of_lists (source := source) (prec := prec) hw hd
  have hok : (openFields source prec up down).inRange = true ↔ ok := by
    rw [openFields_inRange_iff]
    exact and_congr_right fun _ => and_congr_right fun _ =>
      ⟨fun ⟨hdown, hup⟩ d => by cases d; exacts [hdown, hup], fun hall => ⟨hall .down, hall .up⟩⟩
  refine ⟨fun hno => ?_, fun hyes hnone => ?_, fun n hyes hn hfree hlow => ⟨fun hst => ?_, fun hst => ?_⟩⟩
  · exact gives_unchanged (work := circuitOpen _) (r := .badArg) rfl h (circuitOpen_bad hp (mt hok.mp hno))
  · exact gives_unchanged (work := circuitOpen _) (r := .noSpace) rfl h
      (circuitOpen_noSpace hp (hok.mpr hyes) (freeCircuit_eq_none (s := s.afterTaking) hnone))
  all_goals
    have hnumber : s.afterTaking.freeCircuit = some n := freeCircuit_eq_some (s := s.afterTaking) hn hfree hlow
  · exact gives_unchanged (work := circuitOpen _) (r := .badState) rfl h
      (circuitOpen_badState hp (hok.mpr hyes) hnumber ((congrArg Station.state (afterTaking_station s source.toNat)).trans hst))
  intro refuses state
  have hst' : (s.afterTaking.station (openFields source prec up down).source).state ≠ .free := by
    rw [afterTaking_station]
    exact hst
  have hin : ∀ d x, (d, x) ∈ claimSlots (down.map (·.toNat)) (up.map (·.toNat)) ↔ x ∈ listed d := fun d x => by
    rw [mem_claimSlots]
    have hrange := hyes.2.2 d
    cases d
    · exact ⟨And.right, fun hx => ⟨hrange.2 x hx, hx⟩⟩
    · exact ⟨And.right, fun hx => ⟨hrange.2 x hx, hx⟩⟩
  have hrefuses : ∀ d x e, (d, x) ∈ claimSlots (down.map (·.toNat)) (up.map (·.toNat)) →
      (s.afterTaking.refuses (.circuit n) prec.toNat (d, x) = some e ↔ refuses d x e) := fun d x e hx =>
    (refuses_iff s.afterTaking (.circuit n) prec.toNat (d, x) e).trans (and_iff_right ((hin d x).mp hx)).symm
  have hnone : ∀ d x, (∀ e, ¬refuses d x e) → (d, x) ∈ claimSlots (down.map (·.toNat)) (up.map (·.toNat)) →
      s.afterTaking.refuses (.circuit n) prec.toNat (d, x) = none := fun d x hno hx =>
    Option.eq_none_iff_forall_ne_some.mpr fun e he => hno e ((hrefuses d x e hx).mp he)
  refine ⟨fun d x e href hbelow hdown => ?_, fun hno => ?_⟩
  · have hx : (d, x) ∈ claimSlots (down.map (·.toNat)) (up.map (·.toNat)) := (hin d x).mpr href.1
    have hfirst := firstRefusal_of_least hx ((hrefuses d x e hx).mpr href) (fun y hy => hnone d y (hbelow y hy))
      fun hup y => hnone .down y (hdown hup y)
    have hgives := gives_unchanged (c := c) (work := circuitOpen _) (r := .refused) rfl h
      (circuitOpen_refused hp (hok.mpr hyes) hnumber hst' hfirst)
    rw [refusedFields_octets] at hgives
    exact hgives
  · have hfirst : s.afterTaking.firstRefusal (.circuit n) prec.toNat (claimSlots (down.map (·.toNat)) (up.map (·.toNat))) = none :=
      firstRefusal_none _ _ _ _ fun r hr => hnone r.1 r.2 (fun e => hno r.1 r.2 e) hr
    have hwork := circuitOpen_taken hp (hok.mpr hyes) hnumber hst' hfirst
    have hstate : (s.afterTaking.newCircuit (openFields source prec up down)).state = state := by
      rw [newCircuit_state, afterTaking_station]
      rfl
    have hnew : s.afterTaking.newCircuit (openFields source prec up down) =
        { source := source.toNat, up := listed .up, down := listed .down, prec := prec.toNat, state := state
          incoming := List.replicate up.length none, outgoing := List.replicate up.length none, collects := false } := by
      rw [← hstate, ← List.length_map (as := up) (·.toNat)]
      rfl
    have hlen : s.afterTaking.slots.down.length = 43 ∧ s.afterTaking.slots.up.length = 43 := ⟨hs.down, hs.up⟩
    have happlied := applyClaim_applied (.circuit n) prec.toNat _ (fun d x => x ∈ listed d) hin (claimSlots_inOrder _ _)
      (in_claimSlots _ _) (s.afterTaking.setCircuit n (some (s.afterTaking.newCircuit (openFields source prec up down)))) hlen
    obtain ⟨hline, hpoll, hnotes, hhandles, hmail, hlink, hpin, hchoices, hpending, -, -, -, hsent⟩ := State.applyClaim_frame
      (s := s.afterTaking.setCircuit n (some (s.afterTaking.newCircuit (openFields source prec up down)))) (.circuit n) prec.toNat
      (claimSlots (down.map (·.toNat)) (up.map (·.toNat)))
    have hgives := gives_changed (c := c) (work := circuitOpen _) (r := .ok) rfl h hwork hlink rfl
    rw [o8_newCircuit_state, hstate] at hgives
    refine ⟨_, hgives, ?_, fun d x hx => openCircuit_map hs.afterTaking n _ ((hin d x).mpr hx), ?_, hline, hpoll, hnotes, hmail,
      ⟨rfl, hpin, hhandles, hsent, hchoices, hpending⟩, fun hunowned => ?_⟩
    · rw [← hnew]
      exact openCircuit_circuit_self hs.afterTaking hn _
    · rw [← hnew]
      exact happlied.onLink s.link
    · obtain ⟨⟨hlanes, hcircuits, hwindow, hrx, hfree', hrep, hreclaim⟩, hmap⟩ := applyClaim_unowned (o := .circuit n) (prec := prec.toNat)
        (s := s.afterTaking.setCircuit n (some (s.afterTaking.newCircuit (openFields source prec up down)))) hlen
        fun d x hx => hunowned d x ((hin d x).mp hx)
      refine ⟨hlanes, hwindow, hrx, hfree', hrep, hreclaim, fun m hm => ?_, fun d x hx => hmap d x (mt (hin d x).mp hx)⟩
      exact (congrArg (fun l : List (Option Circuit) => (l[m]?).join) hcircuits).trans
        (State.circuit_setCircuit_ne s.afterTaking n m _ hm)

end Sys2Proof.Machine
end

section
/-! SUPPORT. LANE.SET (R67 to R78, R86, R190); O36. -/

namespace Sys2Proof.Machine

/-! ## The fields of LANE.SET -/

section
variable {l prec cut : Octet} {down up : List Octet}

/-- The fields of a LANE.SET of a size that the link can carry. -/
def laneSetFields (l prec cut : Octet) (down up : List Octet) : LaneSetFields where
  lane := l.toNat
  prec := prec.toNat
  cutThrough := cut
  down := down.map (·.toNat)
  up := up.map (·.toNat)

theorem toNat_ofNat_octet {n : Nat} (h : n ≤ 255) : (BitVec.ofNat 8 n).toNat = n := by
  rw [BitVec.toNat_ofNat]
  exact Nat.mod_eq_of_lt (Nat.lt_succ_of_le h)

/-- The layout of LANE.SET: the second count stands after as many octets as the first says. -/
theorem parseLaneSet_cons {n m : Octet} {rest tail : List Octet} (hn : n.toNat ≤ 43) (hrest : rest.drop n.toNat = m :: tail)
    (htail : tail.length = m.toNat) : parseLaneSet (l :: prec :: cut :: n :: rest) =
      some
        { lane := l.toNat, prec := prec.toNat, cutThrough := cut
          down := (rest.take n.toNat).map (·.toNat), up := tail.map (·.toNat) } := by
  refine (if_pos hn).trans ?_
  rw [hrest]
  exact if_pos htail

theorem parseLaneSet_of_lists (hd : down.length ≤ 43) (hu : up.length ≤ 255) :
    parseLaneSet ([l, prec, cut, BitVec.ofNat 8 down.length] ++ down ++ [BitVec.ofNat 8 up.length] ++ up) =
      some (laneSetFields l prec cut down up) := by
  have hcount : (BitVec.ofNat 8 down.length).toNat = down.length := toNat_ofNat_octet (by omega)
  have hbody : [l, prec, cut, BitVec.ofNat 8 down.length] ++ down ++ [BitVec.ofNat 8 up.length] ++ up =
      l :: prec :: cut :: BitVec.ofNat 8 down.length :: (down ++ BitVec.ofNat 8 up.length :: up) := by simp
  rw [hbody, parseLaneSet_cons (m := BitVec.ofNat 8 up.length) (tail := up) (hcount.trans_le hd) (by rw [hcount, List.drop_left])
    (toNat_ofNat_octet hu).symm, hcount, List.take_left]
  rfl

theorem laneSetFields_inRange_iff : (laneSetFields l prec cut down up).inRange = true ↔
    l.toNat ≤ 3 ∧ (1 ≤ prec.toNat ∧ prec.toNat ≤ 7) ∧ (cut = 0x00#8 ∨ cut = 0x01#8)
      ∧ ((down.map (·.toNat)).Nodup ∧ ∀ x ∈ down.map (·.toNat), 5 ≤ x ∧ x ≤ 47)
      ∧ (up.map (·.toNat)).Nodup ∧ ∀ x ∈ up.map (·.toNat), 5 ≤ x ∧ x ≤ 47 := by
  unfold LaneSetFields.inRange
  rw [Bool.and_eq_true, Bool.and_eq_true, Bool.and_eq_true, Bool.and_eq_true, slotListOk_iff, slotListOk_iff, isPrec,
    flag?_isSome_iff, decide_eq_true_iff, decide_eq_true_iff, Config.lanes, Nat.lt_succ_iff]
  constructor
  · exact fun ⟨⟨⟨⟨hlane, hdown⟩, hup⟩, hprec⟩, hcut⟩ => ⟨hlane, hprec, hcut, hdown, hup⟩
  · exact fun ⟨hlane, hprec, hcut, hdown, hup⟩ => ⟨⟨⟨⟨hlane, hdown⟩, hup⟩, hprec⟩, hcut⟩

theorem flag?_getD (h : cut = 0x00#8 ∨ cut = 0x01#8) : (flag? cut).getD false = (cut == 0x01#8) := by
  obtain rfl | rfl := h <;> rfl

end

/-! ## The checks against the lane's claims (R73 to R75) -/

section
variable {s : State}

theorem Lane.busy_iff (x : Lane) : x.busy = true ↔ x.engine = .sending ∨ x.engine = .aborting := by
  unfold Lane.busy
  cases x.engine <;> simp

theorem window_any_lane_iff (l : Nat) :
    (s.window.window.any fun w => decide (w.lane = l)) = true ↔ ∃ w, s.window.window = some w ∧ w.lane = l := by
  rw [Option.any_eq_true]
  exact exists_congr fun w => and_congr_right' decide_eq_true_iff

section
variable (hr : ∀ e ∈ s.slots.reclaim, 5 ≤ e.slot ∧ e.slot ≤ 47)
include hr

/-- A list of payload slots has the members of the claimed set (R74). -/
theorem sameSet_claimed_iff (o : Owner) (d : Dir) {listed : List Nat} (hin : ∀ x ∈ listed, 5 ≤ x ∧ x ≤ 47) :
    sameSet listed (s.claimed o d) = true ↔ ∀ x, 5 ≤ x → x ≤ 47 → (x ∈ listed ↔ ClaimedBy o s d x) := by
  rw [sameSet_iff]
  refine forall_congr' fun x => ?_
  rw [mem_claimed s o d x hr]
  constructor
  · exact fun h hlow hhigh => h.trans (and_iff_right ⟨hlow, hhigh⟩)
  · intro h
    constructor
    · exact fun hx => ⟨hin x hx, (h (hin x hx).1 (hin x hx).2).mp hx⟩
    · exact fun ⟨⟨hlow, hhigh⟩, hx⟩ => (h hlow hhigh).mpr hx

/-- The new slots of a LANE.SET (R75). -/
theorem mem_newSlots {l : Nat} {down up : List Nat} {d : Dir} {x : Nat} (hx : 5 ≤ x ∧ x ≤ 47) :
    (d, x) ∈ s.newSlots l down up ↔ x ∈ (match d with | .down => down | .up => up) ∧ ¬ClaimedBy (.lane l) s d x := by
  have hclaimed : x ∉ s.claimed (.lane l) d ↔ ¬ClaimedBy (.lane l) s d x :=
    not_congr ((mem_claimed s (.lane l) d x hr).trans (and_iff_right hx))
  unfold State.newSlots
  rw [mem_claimSlots, and_iff_right hx]
  cases d
  · exact List.mem_filter.trans (and_congr_right' (decide_eq_true_iff.trans hclaimed))
  · exact List.mem_filter.trans (and_congr_right' (decide_eq_true_iff.trans hclaimed))

end

end

/-! ## The answers of LANE.SET (R74, R76) -/

section
variable {s : State} {body : List Octet} {f : LaneSetFields} (hp : parseLaneSet body = some f)
include hp

theorem laneSet_bad (hf : ¬f.inRange = true) : laneSet body s = answer s .badArg := by
  unfold laneSet
  simp only [hp, Bool.eq_false_iff.mpr hf, if_true]

variable (hf : f.inRange = true)
include hf

theorem laneSet_busy (hb : s.laneSetBusy f = true) : laneSet body s = answer s .busy := by
  unfold laneSet
  simp only [hp, hf, hb, reduceCtorEq, if_false, if_true]

variable (hb : ¬s.laneSetBusy f = true)
include hb

theorem laneSet_refused {x : SlotRef × MapEntry}
    (hx : s.firstRefusal (.lane f.lane) f.prec (s.newSlots f.lane f.down f.up) = some x) :
    laneSet body s = answer s .refused (refusedFields x) := by
  unfold laneSet
  simp only [hp, hf, hb, hx, reduceCtorEq, if_false]

theorem laneSet_taken (hx : s.firstRefusal (.lane f.lane) f.prec (s.newSlots f.lane f.down f.up) = none) : laneSet body s =
    answer (s.applyLaneSet f.lane f.prec ((flag? f.cutThrough).getD false) f.down f.up) .ok
      ((s.applyLaneSet f.lane f.prec ((flag? f.cutThrough).getD false) f.down f.up).laneSetReply f.lane) := by
  unfold laneSet
  simp only [hp, hf, hb, hx, reduceCtorEq, if_false]

end

/-- The octet of a direction (11.3). -/
def dirOctet : Dir → Octet
  | .down => 0x00#8
  | .up => 0x01#8

theorem laneSetReply_octets (s : State) (l : Nat) : s.laneSetReply l =
    (BitVec.ofNat 8 (s.held (.lane l) .down).length :: (s.held (.lane l) .down).map (BitVec.ofNat 8))
      ++ (BitVec.ofNat 8 (s.held (.lane l) .up).length :: (s.held (.lane l) .up).map (BitVec.ofNat 8))
      ++ (BitVec.ofNat 8 (s.slots.reclaim.filter fun e => decide (e.owner = .lane l)).length
        :: (s.slots.reclaim.filter fun e => decide (e.owner = .lane l)).flatMap fun e => [dirOctet e.dir, BitVec.ofNat 8 e.slot]) := by
  have hentry : (fun e : ReclaimEntry => o8 e.dir.code ++ o8 e.slot) = fun e => [dirOctet e.dir, BitVec.ofNat 8 e.slot] :=
    funext fun e => by cases e.dir <;> rfl
  unfold State.laneSetReply
  rw [oSlots_eq, oSlots_eq, hentry]
  rfl

/-- The first two steps of a LANE.SET touch the map, the Reclaim List and the lane (R76). -/
theorem setPrecedence_dropReclaim_eq (s : State) (l p : Nat) (cutThrough : Bool) (gone : ReclaimEntry → Bool) :
    (s.setPrecedence l p cutThrough).dropReclaim gone =
      { s with
        slots := ((s.setPrecedence l p cutThrough).dropReclaim gone).slots
        lanes := ((s.setPrecedence l p cutThrough).dropReclaim gone).lanes } := rfl

/-- Settles O36: the answers of LANE.SET in their order, and the four steps of one that is taken. -/
theorem laneSetClaimsSlots : Obligations.LaneSetClaimsSlots := by
  intro s tag l prec cut down up hd h hu hs c o listed ok claimed same busy fresh refuses hr
  have hp := parseLaneSet_of_lists (l := l) (prec := prec) (cut := cut) hd hu
  have hok : (laneSetFields l prec cut down up).inRange = true ↔ ok := by
    rw [laneSetFields_inRange_iff]
    exact and_congr_right fun _ => and_congr_right fun _ => and_congr_right fun _ =>
      ⟨fun ⟨hdown, hup⟩ d => by cases d; exacts [hdown, hup], fun hall => ⟨hall .down, hall .up⟩⟩
  have hbusy : ok → (s.afterTaking.laneSetBusy (laneSetFields l prec cut down up) = true ↔ busy) := fun hyes => by
    have hsame : ∀ d, (!sameSet (listed d) (s.afterTaking.claimed o d)) = true ↔ ¬same d := fun d => by
      rw [Bool.not_eq_true', ← Bool.not_eq_true]
      exact not_congr (sameSet_claimed_iff (s := s.afterTaking) hr o d (hyes.2.2.2 d).2)
    unfold State.laneSetBusy
    rw [Bool.or_eq_true, Bool.and_eq_true, Bool.and_eq_true, Lane.busy_iff, window_any_lane_iff]
    exact or_congr (and_congr_right' (hsame .down)) (and_congr_right' (hsame .up))
  have hin : ok → ∀ d x, (d, x) ∈ s.afterTaking.newSlots l.toNat (down.map (·.toNat)) (up.map (·.toNat)) ↔ fresh d x := fun hyes d x => by
    by_cases hx : 5 ≤ x ∧ x ≤ 47
    · refine (mem_newSlots (s := s.afterTaking) hr hx).trans ?_
      cases d <;> rfl
    · exact iff_of_false (fun hmem => hx (in_claimSlots _ _ _ hmem)) fun hfresh => hx ((hyes.2.2.2 d).2 x hfresh.1)
  have hrefuses : ∀ d x e, fresh d x → (s.afterTaking.refuses o prec.toNat (d, x) = some e ↔ refuses d x e) := fun d x e hx => by
    refine (refuses_iff s.afterTaking o prec.toNat (d, x) e).trans ⟨fun ⟨hmap, _, hprec⟩ => ⟨hx, hmap, hprec⟩, fun ⟨_, hmap, hprec⟩ => ?_⟩
    exact ⟨hmap, fun howner => hx.2 (.inl ⟨e, hmap, howner⟩), hprec⟩
  have hnone : ∀ d x, (∀ e, ¬refuses d x e) → fresh d x → s.afterTaking.refuses o prec.toNat (d, x) = none := fun d x hno hx =>
    Option.eq_none_iff_forall_ne_some.mpr fun e he => hno e ((hrefuses d x e hx).mp he)
  refine ⟨fun hno => ?_, fun hyes hb => ?_, fun d x e hyes hb href hbelow hdown => ?_, fun hyes hb hno => ?_⟩
  · exact gives_unchanged (work := laneSet _) (r := .badArg) rfl h (laneSet_bad hp (mt hok.mp hno))
  · exact gives_unchanged (work := laneSet _) (r := .busy) rfl h (laneSet_busy hp (hok.mpr hyes) ((hbusy hyes).mpr hb))
  · have hfirst := firstRefusal_of_least ((hin hyes d x).mpr href.1) ((hrefuses d x e href.1).mpr href)
      (fun y hy hmem => hnone d y (hbelow y hy) ((hin hyes d y).mp hmem))
      fun hup y hmem => hnone .down y (hdown hup y) ((hin hyes .down y).mp hmem)
    have hgives := gives_unchanged (c := c) (work := laneSet _) (r := .refused) rfl h
      (laneSet_refused hp (hok.mpr hyes) (mt (hbusy hyes).mp hb) hfirst)
    rw [refusedFields_octets] at hgives
    exact hgives
  · have hfirst : s.afterTaking.firstRefusal o prec.toNat (s.afterTaking.newSlots l.toNat (down.map (·.toNat)) (up.map (·.toNat))) = none :=
      firstRefusal_none _ _ _ _ fun r hmem => hnone r.1 r.2 (fun e => hno r.1 r.2 e) ((hin hyes r.1 r.2).mp hmem)
    have hwork := laneSet_taken hp (hok.mpr hyes) (mt (hbusy hyes).mp hb) hfirst
    rw [laneSetReply_octets, show (flag? (laneSetFields l prec cut down up).cutThrough).getD false = (cut == 0x01#8) from
      flag?_getD hyes.2.2.1] at hwork
    obtain ⟨hline, hpoll, hnotes, hhandles, hmail, hlink, hpin, hchoices, hpending, -, -, -, hsent⟩ := State.applyLaneSet_frame
      (s := s.afterTaking) l.toNat prec.toNat (cut == 0x01#8) (down.map (·.toNat)) (up.map (·.toNat))
    have hlane : l.toNat < 4 := Nat.lt_succ_of_le hyes.1
    have hrange : ∀ d : Dir, ∀ x ∈ listed d, 5 ≤ x ∧ x ≤ 47 := fun d => (hyes.2.2.2 d).2
    obtain ⟨hprec, hcut, hclaims, hnew, hothers, hold, hquiet⟩ := applyLaneSet_spec s.afterTaking l.toNat prec.toNat (cut == 0x01#8)
      (down.map (·.toNat)) (up.map (·.toNat)) hs.afterTaking hlane hr
    obtain ⟨hpmap, hpreclaim, hplanes, q, happlied, dropped, horder, hdropped, hthrough⟩ := applyLaneSet_steps s.afterTaking l.toNat
      prec.toNat (cut == 0x01#8) (down.map (·.toNat)) (up.map (·.toNat)) hs.afterTaking hlane hr hrange
    have hp₀ := setPrecedence_dropReclaim_eq s.afterTaking l.toNat prec.toNat (cut == 0x01#8) fun e =>
      decide (e.owner = .lane l.toNat ∧ e.slot ∉ (match e.dir with | .down => down.map fun x : Octet => x.toNat | .up => up.map fun x : Octet => x.toNat))
    generalize (s.afterTaking.setPrecedence l.toNat prec.toNat (cut == 0x01#8)).dropReclaim _ = p₀ at *
    dsimp only [laneSetFields] at hwork
    generalize s.afterTaking.applyLaneSet l.toNat prec.toNat (cut == 0x01#8) (down.map fun x : Octet => x.toNat)
      (up.map fun x : Octet => x.toNat) = u₀ at *
    have hgives := gives_changed (v := u₀.onLink s.link) (c := c) (work := laneSet _) (r := .ok) rfl h hwork hlink rfl
    refine ⟨u₀.onLink s.link, p₀.onLink s.link, q.onLink s.link, hgives,
      ⟨congrArg (State.onLink s.link) hp₀, hpmap, hpreclaim, hplanes⟩,
      happlied.onLink s.link, ⟨dropped, horder, hdropped, hthrough.onLink s.link fun _ _ _ ht => ht.onLink s.link⟩, hprec, hcut,
      hclaims, fun d x hx => hnew d x (hrange d x hx.1).1 (hrange d x hx.1).2 hx, hold, hothers, hline, hpoll, hnotes, hmail,
      ⟨rfl, hpin, hhandles, hsent, hchoices, hpending⟩, hquiet⟩

end Sys2Proof.Machine
end

section
/-! SUPPORT. The lanes and the circuits at a RUNNING cycle start (R4, R11, R81, R125, R128); O23. -/

namespace Sys2Proof.Machine

/-! ## A lane engine at a cycle start -/

section
variable {x : Lane} {held : List Nat}

theorem Packet.eligible_iff (p : Packet) (cutThrough : Bool) :
    p.eligible cutThrough = true ↔ p.state = .ready ∨ (p.state = .filling ∧ cutThrough = true ∧ p.body ≠ []) := by
  unfold Packet.eligible
  cases p.state <;> simp [List.length_pos_iff]

theorem Lane.tryStart_of_head {p : Packet} {rest : List Packet} (hq : x.queue = p :: rest)
    (h : x.engine = .idle ∧ held ≠ [] ∧ p.eligible x.cutThrough = true) : x.tryStart held =
      { x with
        engine := .sending, activeSet := held, runningCheck := crcPreset
        queue := { p with state := .sending, position := 0 } :: rest } := by
  unfold Lane.tryStart
  rw [hq]
  exact if_pos h

/-- No packet starts: the engine is at work, the lane holds no slot, or no eligible head stands (R125). -/
theorem Lane.tryStart_of_none (h : x.engine = .idle → held ≠ [] → ∀ p, x.queue.head? = some p → ¬p.eligible x.cutThrough = true) :
    x.tryStart held = x := by
  unfold Lane.tryStart
  split
  next p rest hq => exact if_neg fun ⟨he, hheld, helig⟩ => h he hheld p (by rw [hq]; rfl) helig
  · rfl

theorem Lane.gapOver_iff (x : Lane) : x.gapOver = true ↔ x.engine = .gap ∧ 2 ≤ x.gapCount := decide_eq_true_iff

/-- An engine that is at work, or still in its gap, stays as it is (R125, R128). -/
theorem Lane.atCycleStart_of_working (h : x.engine = .sending ∨ x.engine = .aborting ∨ (x.engine = .gap ∧ x.gapCount < 2)) :
    x.atCycleStart held = x := by
  have hgap : ¬x.gapOver = true := by
    rw [Lane.gapOver_iff]
    rintro ⟨hengine, hcount⟩
    rw [hengine] at h
    obtain h | h | ⟨-, h⟩ := h
    · cases h
    · cases h
    · exact absurd hcount (Nat.not_le_of_lt h)
  have hidle : x.engine ≠ .idle := by
    intro hengine
    rw [hengine] at h
    obtain h | h | ⟨h, -⟩ := h <;> cases h
  unfold Lane.atCycleStart
  rw [if_neg hgap]
  exact Lane.tryStart_of_none fun he => absurd he hidle

/-- An engine that is IDLE, or leaves its gap, may start a packet (R125, R128). -/
theorem Lane.atCycleStart_of_idle (h : x.engine = .idle ∨ (x.engine = .gap ∧ 2 ≤ x.gapCount)) :
    x.atCycleStart held = (if x.engine = .gap then x.rest .idle else x).tryStart held := by
  have hgap : x.gapOver = true ↔ x.engine = .gap := by
    rw [Lane.gapOver_iff]
    refine ⟨And.left, fun hengine => ⟨hengine, ?_⟩⟩
    rw [hengine] at h
    obtain h | ⟨-, h⟩ := h
    · cases h
    · exact h
  exact congrArg (Lane.tryStart · held) (if_congr hgap rfl rfl)

end

/-! ## The blocks at a cycle start -/

section
variable {s : State}

theorem runningStart_circuit (s : State) (n : Nat) : s.runningStart.circuit n = (s.circuit n).map Circuit.shift := by
  obtain ⟨-, -, hcircuit, -, -⟩ := runningStart_parts s
  exact hcircuit n

theorem runningStart_lane (s : State) (l : Nat) : s.runningStart.lane l = (s.lane l).atCycleStart (s.held (.lane l) .down) := by
  obtain ⟨-, -, -, -, hlanes⟩ := runningStart_parts s
  rw [State.lane, hlanes, List.getElem?_mapIdx, State.lane]
  cases s.lanes[l]? with
  | none => rfl
  | some x => rfl

theorem Apart.advance (s : State) : Apart s s.advance := ⟨rfl, rfl, rfl, ⟨rfl, rfl, rfl⟩, rfl, rfl⟩

theorem Apart.runningStart (s : State) : Apart s s.runningStart := by
  obtain ⟨-, hhandles, -, hlink, hpin, hchoices, hpending, -, -, -, -, -, hsent⟩ := State.runningStart_frame (s := s)
  exact ⟨hlink, hpin, hhandles, hsent, hchoices, hpending⟩

theorem exec_startsCycle {c : Instr} (hpin : s.pin = .high) (hopen : s.line.cycleOpen = false) (hrun : s.line.state = .running)
    (hc : StartsCycle c s) : exec c s = event s.advance.runningStart := exec_runningStart hpin hopen hrun hc

end

/-- Settles O23: the sample, the circuits and the lane engines at a RUNNING cycle start. -/
theorem runningCycleStartsPackets : Obligations.RunningCycleStartsPackets := by
  intro s hpin hopen hrun c hc
  obtain ⟨hslots, hmail, -, hline, -⟩ := runningStart_parts s.advance
  refine ⟨s.advance.runningStart, gives_of_event _ _ (exec_startsCycle hpin hopen hrun hc) rfl,
    (Apart.advance s).after (Apart.runningStart s.advance), ?_,
    hslots, hmail, fun n => ?_, fun l => ?_⟩
  · rw [hline]
    rfl
  · exact (runningStart_circuit s.advance n).trans (congrArg (fun f => (s.circuit n).map f) (funext shift_eq_cases))
  · intro x held y
    have hlane : s.advance.runningStart.lane l = x.atCycleStart held := runningStart_lane s.advance l
    refine ⟨fun hworking => hlane.trans (Lane.atCycleStart_of_working hworking), fun hidle => ?_⟩
    have hy : s.advance.runningStart.lane l = y.tryStart held := hlane.trans (Lane.atCycleStart_of_idle hidle)
    have hengine : y.engine = .idle := by
      obtain he | ⟨he, -⟩ := hidle <;> simp [y, he]
    have hqueue : y.queue = x.queue := by
      simp only [y]
      split <;> rfl
    have hcut : y.cutThrough = x.cutThrough := by
      simp only [y]
      split <;> rfl
    refine ⟨fun p rest hq hheld helig => ?_, fun hstays => hy.trans (Lane.tryStart_of_none fun _ hheld p hp helig => ?_)⟩
    · refine hy.trans (Lane.tryStart_of_head (hqueue.trans hq) ⟨hengine, hheld, ?_⟩)
      rw [hcut]
      exact (Packet.eligible_iff _ _).mpr helig
    · rw [hqueue] at hp
      rw [hcut, Packet.eligible_iff] at helig
      obtain hempty | hnone | ⟨p', hp', hnot⟩ := hstays
      · rw [hempty] at hp
        cases hp
      · exact hheld hnone
      · obtain rfl : p' = p := Option.some.inj (hp'.symm.trans hp)
        exact hnot helig

end Sys2Proof.Machine
end

section
/-! SUPPORT. The window limit and the grant at a RUNNING cycle start (R96, R98); O22. -/

namespace Sys2Proof.Machine

section
variable {s : State}

/-- The state that the grant of a cycle start acts on: the window limit and the call have had their turn. -/
def State.called (s : State) : State := s.windowTick.chooseCall.makeCall

theorem called_window (s : State) : s.called.window = s.windowTick.window := by simp [State.called]

theorem called_slots (s : State) : s.called.slots = s.slots := by simp [State.called]

theorem called_stations_length (s : State) : s.called.poll.stations.length = s.poll.stations.length := by
  rw [State.called, makeCall_len]
  simp

theorem chooseCall_station (s : State) (b : Nat) : s.windowTick.chooseCall.station b = s.station b :=
  station_of_stations (by simp) b

theorem called_station_keeps (s : State) (b : Nat) :
    (s.called.station b).lane = (s.station b).lane ∧ (s.called.station b).windowsGranted = (s.station b).windowsGranted := by
  obtain ⟨hlane, hgranted, -⟩ := makeCall_keeps s.windowTick.chooseCall b
  rw [chooseCall_station] at hlane hgranted
  exact ⟨hlane, hgranted⟩

theorem runningStart_window (s : State) : s.runningStart.window = s.called.grant.window := by
  obtain ⟨hwindow, -⟩ := runningStart_fields s
  exact hwindow

theorem runningStart_station (s : State) (b : Nat) : s.runningStart.station b = s.called.grant.station b := by
  obtain ⟨-, -, -, -, hpoll, -⟩ := runningStart_fields s
  exact station_of_stations (congrArg PollUnit.stations hpoll) b

theorem grant_of_open {w : Window} (h : s.window.window = some w) : s.grant = s := by
  unfold State.grant
  rw [h]

end

/-- Settles O22: the window limit first, then the grant to the first queued station whose lane holds an up slot. -/
theorem runningCycleGrants : Obligations.RunningCycleGrants := by
  intro s c hpin hopen hrun hs hc upHeld granted
  have hexec := exec_startsCycle hpin hopen hrun hc
  obtain ⟨-, hrx, hfree, hrep, -, -⟩ := runningStart_fields s.advance
  have hwindow := runningStart_window s.advance
  have hstation := runningStart_station s.advance
  have hgranted : s.advance.windowTick.window = { s.window with window := none } → granted s.advance.runningStart := fun hclosed => by
    have hcalled : s.advance.called.window = { s.window with window := none } := (called_window s.advance).trans hclosed
    have hgrant := grant_spec s.advance.called s ((called_stations_length s.advance).trans hs.stations) (by rw [hcalled]) hcalled
      (called_slots s.advance) (fun b => (called_station_keeps s.advance b).1) fun b => (called_station_keeps s.advance b).2
    simp only [← hwindow, ← hstation] at hgrant
    exact hgrant
  refine ⟨fun hnone => ?_, fun w hw hbelow => ⟨?_, ?_⟩, fun w hw hlimit => ?_⟩
  · have htick : s.advance.windowTick = s.advance := windowTick_none hnone
    rw [htick] at hrx hfree hrep
    refine ⟨_, gives_of_event _ _ hexec rfl, hgranted ?_, hrx, hfree, hrep⟩
    rw [htick, ← hnone]
    rfl
  · refine exec_windowOverrun_skip (.inr ?_)
    rw [State.windowOver, hw]
    exact decide_eq_false (Nat.not_le_of_lt hbelow)
  · have htick := windowTick_tick (s := s.advance) hw hbelow
    have hcalled : s.advance.called.window = { s.window with window := some { w with cyclesUsed := w.cyclesUsed + 1 } } := by
      rw [called_window, htick]
      rfl
    have hgrant : s.advance.called.grant = s.advance.called := grant_of_open (by rw [hcalled])
    rw [hgrant] at hwindow
    simp only [hgrant] at hstation
    rw [htick] at hrx hfree hrep
    exact ⟨_, gives_of_event _ _ hexec rfl, hwindow.trans hcalled,
      fun b => (congrArg Station.windowsGranted (hstation b)).trans (called_station_keeps s.advance b).2, hrx, hfree, hrep⟩
  · obtain ⟨hclosed, hrx', hfree', hrep'⟩ := windowTick_over (s := s.advance) hw hlimit
    exact ⟨_, gives_of_event _ _ hexec rfl, hgranted hclosed, hrx.trans hrx', hfree.trans hfree', hrep.trans hrep'⟩

end Sys2Proof.Machine
end

section
/-! SUPPORT. The call of a RUNNING cycle and the header octets (R3, R23 to R25, R52, R188); O21. -/

namespace Sys2Proof.Machine

section
variable {s : State} {a : Nat}

/-! ## What a call puts in slots 0 and 1 (R25, R52) -/

theorem callContents_none (h : s.poll.call = .none) : s.callContents = (0x00#8, 0xFF#8) := by
  unfold State.callContents
  rw [h]
  rfl

theorem callContents_probe (h : s.poll.call = .probe a) : s.callContents = (BitVec.ofNat 8 (8 * a), 0xFF#8) := by
  unfold State.callContents
  rw [h]
  rfl

theorem callContents_offline (h : s.poll.call = .ring a) (ho : (s.station a).state ≠ .online) :
    s.callContents = (callOctet a .none (s.station a).noteToggle, 0xFF#8) := by
  unfold State.callContents
  rw [h]
  exact if_neg (mt isOnline_iff.mp ho)

theorem callContents_online (h : s.poll.call = .ring a) (ho : (s.station a).state = .online) {c : NoteCall} (hc : s.noteCall a = c) :
    s.callContents = (callOctet a c.mark c.toggle, c.octet) := by
  unfold State.callContents
  rw [h, ← hc]
  exact if_pos (isOnline_iff.mpr ho)

theorem noteCall_abort (h : (s.station a).abortPending = true) :
    s.noteCall a = { mark := .abort, toggle := (s.station a).noteToggle, octet := idleOctet, note := none } := if_pos h

theorem callOctet_last (a : Nat) (t : Bool) {i n : Nat} (h : i < n) :
    callOctet a (if i + 1 < n then .more else .endMark) t =
      BitVec.ofNat 8 (8 * a + (if decide (i + 1 = n) = true then 4 else 2) + if t = true then 1 else 0) := by
  by_cases hlast : i + 1 = n
  · rw [if_neg (by omega), if_pos (decide_eq_true hlast)]
    rfl
  · rw [if_pos (by omega), if_neg (by simpa using hlast)]
    rfl

theorem mark_eq_last {i n : Nat} (h : i < n) :
    (if i + 1 < n then NoteMark.more else .endMark) = if decide (i + 1 = n) = true then .endMark else .more := by
  by_cases hlast : i + 1 = n
  · rw [if_neg (by omega), if_pos (decide_eq_true hlast)]
  · rw [if_pos (by omega), if_neg (by simpa using hlast)]

/-- An ONLINE station has an entry of the table (R22). -/
theorem address_of_online (hs : s.poll.stations.length = 30) (h : (s.station a).state = .online) : 1 ≤ a ∧ a ≤ 30 := by
  cases a with
  | zero => cases h
  | succ k =>
    refine ⟨Nat.succ_pos k, ?_⟩
    by_contra hk
    rw [State.station, List.getElem?_eq_none (by omega)] at h
    cases h

theorem station_modStation_of_address (hs : s.poll.stations.length = 30) (ha : 1 ≤ a ∧ a ≤ 30) (f : Station → Station) :
    (s.modStation a f).station a = f (s.station a) :=
  (station_modStation s a a f hs).trans (if_pos ⟨rfl, ha⟩)

/-! ## The note unit's part of a call (R52) -/

section
variable {A B : List Note} {n : Note} (hcall : s.poll.call = .ring a) (honline : (s.station a).state = .online)
include hcall honline

/-- A call that names no note. -/
theorem makeCall_notes_without {c : NoteCall} (hc : s.noteCall a = c) (hn : c.note = none) : s.makeCall.notes =
    { s.notes with callOut := some { station := a, mark := c.mark, toggle := c.toggle, note := none } } := by
  rw [makeCall_online hcall (isOnline_iff.mpr honline), callNote_without_note hc hn]

variable (habort : (s.station a).abortPending = false) (hstore : s.notes.store = A ++ n :: B) (hst : n.station = a)
  (hbefore : ∀ m ∈ A, m.station ≠ a) (hone : ∀ m ∈ A ++ B, m.handle ≠ n.handle)
include habort hstore hst hbefore hone

/-- The call of a QUEUED note: it becomes IN_FLIGHT. -/
theorem makeCall_queued (hq : n.state = .queued) : s.makeCall = State.modStation
    { s with
      notes :=
        { s.notes with
          store := A ++ { n with state := .inFlight } :: B
          callOut := some
            { station := a, mark := if n.nextIndex + 1 < n.octets.length then .more else .endMark
              toggle := !(s.station a).noteToggle, note := some (n.handle, n.nextIndex) } } }
    a fun t => { t with busyRun := 0, unackedPolls := 0 } := by
  rw [makeCall_online hcall (isOnline_iff.mpr honline),
    callNote_with_note (noteCall_head s a A n B habort hstore hst hbefore) rfl (note?_of_split hstore hone), if_pos hq]
  have hmap := map_key_of_split (key := Note.handle) (x := n) hone fun m => { m with state := .inFlight }
  rw [← hstore] at hmap
  refine congrArg (fun t => State.modStation t a fun t => { t with busyRun := 0, unackedPolls := 0 }) ?_
  dsimp only [State.modNote]
  rw [hmap]

/-- The call of a note that is IN_FLIGHT already. -/
theorem makeCall_inFlight (hq : n.state = .inFlight) : s.makeCall =
    { s with
      notes :=
        { s.notes with
          store := A ++ { n with state := .inFlight } :: B
          callOut := some
            { station := a, mark := if n.nextIndex + 1 < n.octets.length then .more else .endMark
              toggle := !(s.station a).noteToggle, note := some (n.handle, n.nextIndex) } } } := by
  rw [makeCall_online hcall (isOnline_iff.mpr honline),
    callNote_with_note (noteCall_head s a A n B habort hstore hst hbefore) rfl (note?_of_split hstore hone),
    if_neg (by rw [hq]; decide), ← hq, ← hstore]

end

end

/-! ## The blocks that the call passes through -/

section
variable {s : State}

/-- The state once the call of a RUNNING cycle is chosen (R24). -/
def State.chosen (s : State) : State := s.windowTick.chooseCall

theorem chosen_notes (s : State) : s.chosen.notes = s.notes := by simp [State.chosen]

theorem runningStart_notes (s : State) : s.runningStart.notes = s.chosen.makeCall.notes := by
  obtain ⟨-, -, -, -, -, hnotes⟩ := runningStart_fields s
  exact hnotes

theorem runningStart_call (s : State) : s.runningStart.poll.call = s.chosen.poll.call
    ∧ s.runningStart.poll.pollPointer = s.chosen.poll.pollPointer ∧ s.runningStart.poll.probePointer = s.chosen.poll.probePointer := by
  obtain ⟨-, -, -, -, hpoll, -⟩ := runningStart_fields s
  rw [hpoll]
  simp [State.chosen]

theorem runningStart_counts (s : State) (b : Nat) : (s.runningStart.station b).busyRun = (s.chosen.makeCall.station b).busyRun
    ∧ (s.runningStart.station b).unackedPolls = (s.chosen.makeCall.station b).unackedPolls := by
  obtain ⟨-, -, -, -, hbusy, hunacked⟩ := grant_keeps_stations s.called b
  rw [runningStart_station]
  exact ⟨hbusy, hunacked⟩

/-- A cycle start changes three counters of a station entry (R52, R96). -/
theorem runningStart_station_eq (s : State) (b : Nat) : s.runningStart.station b =
    { s.station b with
      busyRun := (s.runningStart.station b).busyRun, unackedPolls := (s.runningStart.station b).unackedPolls
      windowsGranted := (s.runningStart.station b).windowsGranted } := by
  have hgrant := station_grant s.called b
  rw [← runningStart_station] at hgrant
  have hcalled : s.called.station b = { s.station b with busyRun := (s.called.station b).busyRun, unackedPolls := (s.called.station b).unackedPolls } := by
    rw [← chooseCall_station s b]
    obtain h | h := makeCall_station s.windowTick.chooseCall b
    · rw [State.called, h]
    · rw [State.called, h]
  rw [hcalled] at hgrant
  rw [hgrant]

/-- The header octets of a RUNNING cycle (R3, R188). -/
theorem runningStart_driven (s : State) : s.runningStart.line.driven =
    [s.chosen.callContents.1, s.chosen.callContents.2, 0xFF#8, 0xFF#8,
      BitVec.ofNat 8 (8 * (s.runningStart.window.window.map (·.owner)).getD 0)] ++ List.replicate 43 0xFF#8 := by
  obtain ⟨-, -, -, hline, -⟩ := runningStart_parts s
  rw [hline]
  exact headerOf_eq _ _ _

end

/-- Settles O21: the choice of the call, and what it puts out and keeps. -/
theorem runningCycleCalls : Obligations.RunningCycleCalls := by
  intro s c hpin hopen hrun hs hc
  have hstation : ∀ b, s.advance.chosen.station b = s.station b := chooseCall_station s.advance
  have hnotes : s.advance.chosen.notes = s.notes := chosen_notes s.advance
  have hunotes := runningStart_notes s.advance
  have hcounts := runningStart_counts s.advance
  obtain ⟨hcall, hpollPointer, hprobePointer⟩ := runningStart_call s.advance
  have hlength : s.advance.chosen.poll.stations.length = 30 := by
    have hsame : s.advance.chosen.poll.stations = s.advance.poll.stations := by simp [State.chosen]
    rw [hsame]
    exact hs.stations
  refine ⟨s.advance.runningStart, gives_of_event _ _ (exec_startsCycle hpin hopen hrun hc) rfl, ?_,
    ⟨s.advance.chosen.callContents.1, s.advance.chosen.callContents.2, runningStart_driven s.advance, fun hnone => ?_,
      fun a hprobe => ?_, fun a hring => ?_⟩, runningStart_station_eq s.advance, fun hnodup b hquiet => ?_⟩
  · intro now free ring probes
    have hspec := chooseCall_spec s.advance.windowTick
    have hticked : ∀ b, s.advance.windowTick.station b = s.station b := station_of_stations (by simp)
    have hpoll : s.advance.windowTick.poll = s.poll := by simp
    have hline : s.advance.windowTick.line = s.advance.line := by simp
    simp only [hticked, hpoll, hline] at hspec
    rw [hcall, hpollPointer, hprobePointer]
    exact hspec
  · rw [hcall] at hnone
    rw [callContents_none hnone, hunotes, makeCall_otherwise (by rw [hnone]; simp), hnotes]
    exact ⟨rfl, rfl, rfl⟩
  · rw [hcall] at hprobe
    rw [callContents_probe hprobe, hunotes, makeCall_otherwise (by rw [hprobe]; simp), hnotes]
    exact ⟨rfl, rfl, rfl⟩
  · intro t bit
    rw [hcall] at hring
    have ht : s.advance.chosen.station a = t := hstation a
    refine ⟨fun hoff => ?_, fun hon habort => ?_, fun hon habort hempty => ?_,
      fun A n B hon habort hstore hst hbefore hindex hnodup => ?_⟩
    · have hoff' : (s.advance.chosen.station a).state ≠ .online := ht ▸ hoff
      rw [callContents_offline hring hoff', hunotes, hnotes.symm, ht]
      refine ⟨rfl, rfl, ?_⟩
      rw [makeCall_otherwise]
      rintro b hb
      obtain rfl : a = b := by
        have := hring.symm.trans hb
        simpa using this
      exact Bool.eq_false_iff.mpr (mt isOnline_iff.mp hoff')
    all_goals
      have hon' : (s.advance.chosen.station a).state = .online := ht ▸ hon
      have habort' : (s.advance.chosen.station a).abortPending = _ := (congrArg Station.abortPending ht).trans habort
    · have hnote := noteCall_abort habort'
      rw [callContents_online hring hon' hnote, hunotes, makeCall_notes_without hring hon' hnote rfl, hnotes, ht]
      exact ⟨rfl, rfl, rfl⟩
    · have hnote := noteCall_none s.advance.chosen a habort' (hnotes ▸ hempty)
      rw [callContents_online hring hon' hnote, hunotes, makeCall_notes_without hring hon' hnote rfl, hnotes, ht]
      exact ⟨rfl, rfl, rfl⟩
    · intro last
      have hone : ∀ m ∈ A ++ B, m.handle ≠ n.handle := key_ne_of_nodup (hstore ▸ hnodup)
      have hstore' : s.advance.chosen.notes.store = A ++ n :: B := hnotes ▸ hstore
      have hnote := noteCall_head s.advance.chosen a A n B habort' hstore' hst hbefore
      have hqueued := makeCall_queued hring hon' habort' hstore' hst hbefore hone
      have hflying := makeCall_inFlight hring hon' habort' hstore' hst hbefore hone
      rw [callContents_online hring hon' hnote, hunotes, ht]
      obtain ⟨hbusy, hunacked⟩ := hcounts a
      rw [hbusy, hunacked]
      refine ⟨callOctet_last a _ hindex, ?_, ?_, fun hstate => ?_, fun hstate => ?_⟩
      · rw [List.getElem?_eq_getElem hindex]
        rfl
      · have hmark := mark_eq_last hindex
        cases hstate : n.state with
        | queued =>
          rw [hqueued hstate, State.modStation_notes, hnotes, ht, hmark]
        | inFlight => rw [hflying hstate, hnotes, ht, hmark]
      · have hself := (congrArg (State.station · a) (hqueued hstate)).trans
          (station_modStation_of_address (by exact hlength) (address_of_online hlength hon') _)
        rw [hself]
        exact ⟨rfl, rfl⟩
      · rw [hflying hstate, ← ht]
        exact ⟨congrArg Station.busyRun (station_of_stations rfl a), congrArg Station.unackedPolls (station_of_stations rfl a)⟩
  · obtain ⟨hbusy, hunacked⟩ := hcounts b
    rw [hcall] at hquiet
    have hsame := station_makeCall_quiet s.advance.chosen b (hnotes ▸ hnodup) (by rw [hstation, hnotes]; exact hquiet)
    rw [hbusy, hunacked, hsame, hstation]
    exact ⟨rfl, rfl⟩

end Sys2Proof.Machine
end
